-- ==== Sys2Proof/Word.lean ====
section
/-!
DEFINITION. The word types of the core (00_scope.md rule R8 and rule R10): all values are unsigned and
bit 0 is the least significant bit.
-/
namespace Sys2Proof

/-- Eight bits (rule R8). -/
abbrev Byte := BitVec 8

/-- A 16-bit field: the sync register, the data length, the checksums (rules R24, R36, R39, R40). -/
abbrev Word16 := BitVec 16

/-- An instant: an unsigned integer of `TIME_WIDTH` = 64 bits, counted in milliseconds (rule R10). -/
abbrev Instant := BitVec 64

/-- The level of a line: `true` is 1, the high (set) level (rule R8). -/
abbrev Level := Bool

end Sys2Proof
end

