-- ==== Sys2Proof/Config.lean ====
section
/-!
DEFINITION. What an instance of the core fixes (00_scope.md rule R6 and rule R7), the usual instantiation, and
the one free value of the model.

The parameters are constants of an instance (rule R6, decision D31). `State` carries them in a field that no operation
writes (notes/assumptions/1.md), so a statement about every state is a statement about every instantiation.
-/
namespace Sys2Proof

/-- The two memories of the core (20_memory.md rule R60, rule R61). -/
inductive BufferTag where
  | settings
  | image
  deriving DecidableEq, Repr

/-- `VIOLATION_POLICY` (rule R6, decision D18; the halt variant is 60_exceptions.md rule R216). -/
inductive ViolationPolicy where
  | resync
  | halt
  deriving DecidableEq, Repr

/-- The parameters of 00_scope.md rule R6, one field per row of its table. `TIME_WIDTH` is fixed at 64 and is the width of
`Instant`. -/
structure Params where
  /-- `SYNC_WORD`, any 16-bit value (rule R7). -/
  syncWord : Word16
  /-- `CMD_INIT`. -/
  cmdInit : Byte
  /-- `CMD_PRINT`. -/
  cmdPrint : Byte
  /-- `CMD_DATA`. -/
  cmdData : Byte
  /-- `CMD_INQUIRY`. -/
  cmdInquiry : Byte
  /-- `DEVICE_ID_CONSTANT`. -/
  deviceId : Byte
  /-- `ST_BIT_CHECKSUM_ERROR`. -/
  bitChecksumError : Fin 8
  /-- `ST_BIT_PRINTER_BUSY`. -/
  bitPrinterBusy : Fin 8
  /-- `ST_BIT_PRINT_BUFFER_FULL`. -/
  bitPrintBufferFull : Fin 8
  /-- `ST_BIT_UNPROCESSED_DATA`. -/
  bitUnprocessedData : Fin 8
  /-- `TIMEOUT_WINDOW`. -/
  timeoutWindow : Instant
  /-- `PRETEND_PRINT_DURATION`. -/
  pretendPrintDuration : Instant
  /-- `SETTINGS_BUFFER_CAPACITY`, in bytes. -/
  settingsCapacity : Nat
  /-- `IMAGE_BUFFER_CAPACITY`, in bytes, 1 to 65535. -/
  imageCapacity : Nat
  /-- `PAYLOAD_EXTRA`, 0 or 1 (rule R149, decision D9). -/
  payloadExtra : Fin 2
  /-- `RESYNC_AFTER_PACKET` (42_session.md rule R183, decision D10: OPEN). -/
  resyncAfterPacket : Bool
  /-- `VIOLATION_POLICY`. -/
  violationPolicy : ViolationPolicy
  deriving DecidableEq, Repr

/-- The four command codes are pairwise distinct (rule R7). -/
def Params.codesDistinct (p : Params) : Bool :=
  decide ([p.cmdInit, p.cmdPrint, p.cmdData, p.cmdInquiry].Nodup)

/-- The four status bit positions are pairwise distinct (rule R7). -/
def Params.bitsDistinct (p : Params) : Bool :=
  decide ([p.bitChecksumError, p.bitPrinterBusy, p.bitPrintBufferFull, p.bitUnprocessedData].Nodup)

/-- The instantiations a model admits: rule R7's two constraints and the range that rule R6 gives
`IMAGE_BUFFER_CAPACITY`. "Nothing else is required." -/
def Params.wf (p : Params) : Bool :=
  p.codesDistinct && p.bitsDistinct && decide (1 ≤ p.imageCapacity) && decide (p.imageCapacity ≤ 65535)

/-- The capacity of a buffer (20_memory.md rule R60). -/
def Params.capacity (p : Params) : BufferTag → Nat
  | .settings => p.settingsCapacity
  | .image => p.imageCapacity

/-- The instance of `State.reset`: the decided values of rule R6 (100, 2000, 4, 650, 0, `resync`) and, for the OPEN
parameters, the column "usual value" (PRESUMED: the family's, 93_implementation_defined.md G1; notes/assumptions/2.md). -/
def Params.usual : Params where
  syncWord := 0x8833#16
  cmdInit := 0x01#8
  cmdPrint := 0x02#8
  cmdData := 0x04#8
  cmdInquiry := 0x0F#8
  deviceId := 0x81#8
  bitChecksumError := 0
  bitPrinterBusy := 1
  bitPrintBufferFull := 2
  bitUnprocessedData := 3
  timeoutWindow := 100#64
  pretendPrintDuration := 2000#64
  settingsCapacity := 4
  imageCapacity := 650
  payloadExtra := 0
  resyncAfterPacket := true
  violationPolicy := .resync

/-- FREE VALUE: the byte that a buffer holds at an offset that no payload byte has reached since the last `RESET` (rule R241,
93_implementation_defined.md U11: "any value"). The first number is the model's count of `RESET` operations
(`State.epoch`), so that each `RESET` leaves fresh unknown contents; the second is the offset. It has no body:
nothing can be proved about its value (notes/assumptions/4.md). -/
opaque Config.unwrittenByte : BufferTag → Nat → Nat → Byte

end Sys2Proof
end

