-- ==== Sys2Proof/Syntax.lean ====
section
/-!
DEFINITION. The instructions: one constructor per row of spec/opcode_table.json (30_encoding.md rule R95).

The core has no instruction set; its table lists the operations of rule R81, their sub-operations, the wire formats, the byte
slots of a packet and the commands. An operand is an argument of the row's pseudocode, or a field of the row's format.
-/
namespace Sys2Proof

/-- The `command` register's values (10_state.md rule R34). -/
inductive Command where
  | init
  | data
  | print
  | inquiry
  | unknown
  deriving DecidableEq, Repr

/-- What a master sends after the command byte of one packet (30_encoding.md rule R86), and the instant of its edges (rule R97:
`PACKET … @t`). The length field is the number of payload bytes. The checksum is the field as sent: it need not match.
`ackSlot` and `statusSlot` are the master's bytes in the two response slots, which the core ignores. -/
structure PacketBody where
  compression : Byte
  payload : List Byte
  checksum : Word16
  ackSlot : Byte
  statusSlot : Byte
  instant : Instant
  deriving DecidableEq, Repr

/-- One constructor per row of the opcode table, in the table's order. `t` is an instant, `b` a byte, `c` the clock level and
`d` the data-in level. -/
inductive Instr where
  /-- RESET (rule R240). -/
  | reset
  /-- EDGE (rule R110). -/
  | edge (c d : Level) (t : Instant)
  /-- POLL (rule R184). -/
  | poll (t : Instant)
  /-- CLEAR_READY (rule R188). -/
  | clearReady
  /-- IS_READY (rule R189). -/
  | isReady
  /-- GET_IMAGE (rule R190). -/
  | getImage
  /-- GET_LAST_COMMAND (rule R191). -/
  | getLastCommand
  /-- STAGE, a sub-operation (rule R118). -/
  | stage (b : Byte)
  /-- BYTE, a sub-operation (rule R180). -/
  | byte (b : Byte) (t : Instant)
  /-- PARSE, a sub-operation (rule R140). -/
  | parse (b : Byte) (t : Instant)
  /-- SESSION_RESYNC, a sub-operation (rule R186). -/
  | sessionResync
  /-- BITCELL: a falling edge, then a rising edge that samples `d` (rule R82). -/
  | bitcell (d : Level) (t : Instant)
  /-- FRAME: eight bit cells, bit 7 first (rule R83). -/
  | frame (b : Byte) (t : Instant)
  /-- PREAMBLE: the sixteen bit cells of `SYNC_WORD`, bit 15 first (rule R84). -/
  | preamble (t : Instant)
  /-- SLOT_COMMAND (rule R142). -/
  | slotCommand (b : Byte)
  /-- SLOT_COMPRESSION (rule R143). -/
  | slotCompression (b : Byte)
  /-- SLOT_LENGTH_LOW (rule R144). -/
  | slotLengthLow (b : Byte)
  /-- SLOT_LENGTH_HIGH (rule R145). -/
  | slotLengthHigh (b : Byte)
  /-- SLOT_PAYLOAD (rule R148). -/
  | slotPayload (b : Byte)
  /-- SLOT_CHECKSUM_LOW (rule R150). -/
  | slotChecksumLow (b : Byte)
  /-- SLOT_CHECKSUM_HIGH (rule R151). -/
  | slotChecksumHigh (b : Byte)
  /-- SLOT_DEVICE_ID (rule R153). -/
  | slotDeviceId (b : Byte) (t : Instant)
  /-- SLOT_STATUS (rule R156). -/
  | slotStatus (b : Byte)
  /-- STATUS_BYTE with its fields: unprocessed data, buffer full, busy, checksum error (rule R92). -/
  | statusByte (u f b e : Bool)
  /-- INIT: one packet with the command `INIT` (rule R163). -/
  | init (m : PacketBody)
  /-- PRINT: one packet with the command `PRINT` (rule R163). -/
  | print (m : PacketBody)
  /-- DATA: one packet with the command `DATA` (rule R163). -/
  | data (m : PacketBody)
  /-- INQUIRY: one packet with the command `INQUIRY` (rule R163). -/
  | inquiry (m : PacketBody)
  /-- UNKNOWN: one packet whose command byte `b` is none of the four codes (rule R89, rule R163). -/
  | unknown (b : Byte) (m : PacketBody)
  deriving DecidableEq, Repr

/-- The rows that a collaborator can cause: the seven operations of rule R81, and the wire formats and packets, which are
sequences of `EDGE` operations (rule R82, rule R97). The other rows run only inside an operation ("cannot be invoked from
outside", rule R81). -/
def Instr.external : Instr → Bool
  | .reset | .edge .. | .poll _ | .clearReady | .isReady | .getImage | .getLastCommand => true
  | .bitcell .. | .frame .. | .preamble _ => true
  | .init _ | .print _ | .data _ | .inquiry _ | .unknown .. => true
  | .stage _ | .byte .. | .parse .. | .sessionResync => false
  | .slotCommand _ | .slotCompression _ | .slotLengthLow _ | .slotLengthHigh _ | .slotPayload _ => false
  | .slotChecksumLow _ | .slotChecksumHigh _ | .slotDeviceId .. | .slotStatus _ | .statusByte .. => false

end Sys2Proof
end

