-- ==== Sys2Proof/WellFormed.lean ====
section
/-!
DEFINITION. Which instructions are well-formed for an instance: the checks that a constructor's operand types do not make.
-/
namespace Sys2Proof

/-- One of the four command codes (30_encoding.md rule R88). -/
def Params.isCommandCode (p : Params) (b : Byte) : Bool :=
  decide (b ∈ [p.cmdInit, p.cmdPrint, p.cmdData, p.cmdInquiry])

/-- The length field has 16 bits, so a packet has at most 65535 payload bytes (rule R86, rule R87). -/
def PacketBody.wf (m : PacketBody) : Bool :=
  decide (m.payload.length ≤ 65535)

/-- The well-formed instructions of an instance: a packet's payload fits the length field, and the command byte of an `UNKNOWN`
packet is none of the four codes (rule R89). Every other operand is of a type whose every value the spec admits. -/
def Instr.wf (p : Params) : Instr → Bool
  | .init m | .print m | .data m | .inquiry m => m.wf
  | .unknown b m => !p.isCommandCode b && m.wf
  | .reset | .edge .. | .poll _ | .clearReady | .isReady | .getImage | .getLastCommand => true
  | .stage _ | .byte .. | .parse .. | .sessionResync => true
  | .bitcell .. | .frame .. | .preamble _ => true
  | .slotCommand _ | .slotCompression _ | .slotLengthLow _ | .slotLengthHigh _ | .slotPayload _ => true
  | .slotChecksumLow _ | .slotChecksumHigh _ | .slotDeviceId .. | .slotStatus _ | .statusByte .. => true

end Sys2Proof
end

