-- ==== Sys2Proof/Decode.lean ====
section
/-!
DEFINITION. The two things the core decodes (30_encoding.md): the commands and fields of the wire, and the inputs that its
collaborators invoke on it. Then the encoder of the inputs, and the words of the opcode table.

An operation has no bit pattern in the spec (rule R80, rule R81). The model writes every input as a RECORD of bytes: one tag
byte, which names the row's format, and then the row's own bits (of a wire format: the bits the spec gives it) and its other
operands. The tags, the byte order of an instant and the place of the operands in a record are the model's (DESIGN CHOICE,
notes/assumptions/6.md); the bits of a packet, of the sync word, of a command code and of the status byte are the spec's.
-/
namespace Sys2Proof

/-- Why bytes are no input record; each is refused by name. -/
inductive DecodeError where
  /-- The bytes end inside a record. -/
  | truncated
  /-- The first byte is no tag of the record format. -/
  | unknownTag (tag : Byte)
  /-- A level (one bit, rule R81) was written as a byte other than 0 and 1. -/
  | badLevel (b : Byte)
  /-- A PREAMBLE record whose sixteen bits are not `SYNC_WORD` (rule R84). -/
  | notSyncWord (w : Word16)
  /-- A STATUS_BYTE record with a 1 in a bit that carries no flag (rule R92: "are 0"). -/
  | reservedStatusBits (b : Byte)
  deriving DecidableEq, Repr

/-! ### The fields of the wire -/

/-- `decode_command` of rule R88: equality with the four parameters, all 8 bits significant. -/
def decodeCommand (p : Params) (b : Byte) : Command :=
  if b = p.cmdInit then .init
  else if b = p.cmdData then .data
  else if b = p.cmdPrint then .print
  else if b = p.cmdInquiry then .inquiry
  else .unknown

/-- `{hi, lo}`: a 16-bit field from the byte received first and the byte received second (rule R64, rule R85). -/
def assemble16 (lo hi : Byte) : Word16 := hi ++ lo

/-- Bits 7 to 0 of a 16-bit field, sent first (rule R85). -/
def lowByte (w : Word16) : Byte := w.extractLsb' 0 8

/-- Bits 15 to 8 of a 16-bit field, sent second (rule R85). -/
def highByte (w : Word16) : Byte := w.extractLsb' 8 8

/-- `zext_8(flag) << position` (rule R92). -/
def flagAt (flag : Bool) (position : Fin 8) : Byte :=
  (BitVec.ofBool flag).setWidth 8 <<< position.val

/-- The status byte of rule R92, from `checksum_error`, `printer_busy`, `print_buffer_full` and `unprocessed_data_present`. -/
def encodeStatus (p : Params) (e b f u : Bool) : Byte :=
  flagAt e p.bitChecksumError ||| flagAt b p.bitPrinterBusy ||| flagAt f p.bitPrintBufferFull
    ||| flagAt u p.bitUnprocessedData

/-- The bits of the status byte that carry a flag; "the four bits not named by a parameter are 0" (rule R92). -/
def statusMask (p : Params) : Byte := encodeStatus p true true true true

/-! ### The record format -/

/-- The tag bytes, one per format or operation (DESIGN CHOICE, notes/assumptions/6.md). -/
def Tag.reset : Byte := 1#8
def Tag.edge : Byte := 2#8
def Tag.poll : Byte := 3#8
def Tag.clearReady : Byte := 4#8
def Tag.isReady : Byte := 5#8
def Tag.getImage : Byte := 6#8
def Tag.getLastCommand : Byte := 7#8
def Tag.stage : Byte := 8#8
def Tag.byte : Byte := 9#8
def Tag.parse : Byte := 10#8
def Tag.sessionResync : Byte := 11#8
def Tag.bitcell : Byte := 12#8
def Tag.frame : Byte := 13#8
def Tag.preamble : Byte := 14#8
def Tag.slotCommand : Byte := 15#8
def Tag.slotCompression : Byte := 16#8
def Tag.slotLengthLow : Byte := 17#8
def Tag.slotLengthHigh : Byte := 18#8
def Tag.slotPayload : Byte := 19#8
def Tag.slotChecksumLow : Byte := 20#8
def Tag.slotChecksumHigh : Byte := 21#8
def Tag.slotDeviceId : Byte := 22#8
def Tag.slotStatus : Byte := 23#8
def Tag.statusByte : Byte := 24#8
/-- The five CMD rows share one tag: the command byte tells them apart (rule R88). -/
def Tag.packet : Byte := 25#8

/-- What a reader of part of a record answers: the value and the bytes after it. -/
abbrev Reader (α : Type) := List Byte → Except DecodeError (α × List Byte)

/-- One byte. -/
def takeByte : Reader Byte
  | [] => .error .truncated
  | b :: r => .ok (b, r)

/-- A level: the byte 0 or 1. -/
def takeLevel : Reader Level
  | [] => .error .truncated
  | b :: r => if b = 0#8 then .ok (false, r) else if b = 1#8 then .ok (true, r) else .error (.badLevel b)

/-- A 16-bit field of the wire, low byte first (rule R85). -/
def takeWord16 : Reader Word16
  | lo :: hi :: r => .ok (assemble16 lo hi, r)
  | _ => .error .truncated

/-- An instant: eight bytes, the least significant first. -/
def takeInstant : Reader Instant
  | b0 :: b1 :: b2 :: b3 :: b4 :: b5 :: b6 :: b7 :: r => .ok (b7 ++ b6 ++ b5 ++ b4 ++ b3 ++ b2 ++ b1 ++ b0, r)
  | _ => .error .truncated

/-- `n` bytes. -/
def takeBytes (n : Nat) : Reader (List Byte) := fun r =>
  if r.length < n then .error .truncated else .ok (r.take n, r.drop n)

/-- What follows the command byte of a packet, in the order of rule R86, and then the instant. -/
def takePacketBody : Reader PacketBody := fun r => do
  let (compression, r) ← takeByte r
  let (length, r) ← takeWord16 r
  let (payload, r) ← takeBytes length.toNat r
  let (checksum, r) ← takeWord16 r
  let (ackSlot, r) ← takeByte r
  let (statusSlot, r) ← takeByte r
  let (instant, r) ← takeInstant r
  .ok ({ compression, payload, checksum, ackSlot, statusSlot, instant }, r)

/-- The CMD row that a command byte selects (rule R88). -/
def packetInstr (p : Params) (b : Byte) (m : PacketBody) : Instr :=
  match decodeCommand p b with
  | .init => .init m
  | .data => .data m
  | .print => .print m
  | .inquiry => .inquiry m
  | .unknown => .unknown b m

/-- A record whose only operand is one byte. -/
def takeByteInstr (f : Byte → Instr) : Reader Instr := fun r => do
  let (b, r) ← takeByte r
  .ok (f b, r)

/-- A record whose operands are one byte and the instant. -/
def takeByteInstantInstr (f : Byte → Instant → Instr) : Reader Instr := fun r => do
  let (b, r) ← takeByte r
  let (t, r) ← takeInstant r
  .ok (f b t, r)

/-- A PREAMBLE record: the sync word as on the wire, bit 15 first, then the instant (rule R84). -/
def takePreamble (p : Params) : Reader Instr := fun r => do
  let (hi, r) ← takeByte r
  let (lo, r) ← takeByte r
  if assemble16 lo hi = p.syncWord then
    let (t, r) ← takeInstant r
    .ok (.preamble t, r)
  else .error (.notSyncWord (assemble16 lo hi))

/-- A STATUS_BYTE record: the status byte in the layout of rule R92. -/
def takeStatusByte (p : Params) : Reader Instr := fun r => do
  let (v, r) ← takeByte r
  if v &&& ~~~ statusMask p = 0#8 then
    .ok (.statusByte (v.getLsbD p.bitUnprocessedData.val) (v.getLsbD p.bitPrintBufferFull.val)
      (v.getLsbD p.bitPrinterBusy.val) (v.getLsbD p.bitChecksumError.val), r)
  else .error (.reservedStatusBits v)

/-- The rest of a record, after its tag. -/
def decodeBody (p : Params) (tag : Byte) : Reader Instr := fun r =>
  if tag = Tag.reset then .ok (.reset, r)
  else if tag = Tag.edge then do
    let (c, r) ← takeLevel r
    let (d, r) ← takeLevel r
    let (t, r) ← takeInstant r
    .ok (.edge c d t, r)
  else if tag = Tag.poll then do
    let (t, r) ← takeInstant r
    .ok (.poll t, r)
  else if tag = Tag.clearReady then .ok (.clearReady, r)
  else if tag = Tag.isReady then .ok (.isReady, r)
  else if tag = Tag.getImage then .ok (.getImage, r)
  else if tag = Tag.getLastCommand then .ok (.getLastCommand, r)
  else if tag = Tag.stage then takeByteInstr .stage r
  else if tag = Tag.byte then takeByteInstantInstr .byte r
  else if tag = Tag.parse then takeByteInstantInstr .parse r
  else if tag = Tag.sessionResync then .ok (.sessionResync, r)
  else if tag = Tag.bitcell then do
    let (d, r) ← takeLevel r
    let (t, r) ← takeInstant r
    .ok (.bitcell d t, r)
  else if tag = Tag.frame then takeByteInstantInstr .frame r
  else if tag = Tag.preamble then takePreamble p r
  else if tag = Tag.slotCommand then takeByteInstr .slotCommand r
  else if tag = Tag.slotCompression then takeByteInstr .slotCompression r
  else if tag = Tag.slotLengthLow then takeByteInstr .slotLengthLow r
  else if tag = Tag.slotLengthHigh then takeByteInstr .slotLengthHigh r
  else if tag = Tag.slotPayload then takeByteInstr .slotPayload r
  else if tag = Tag.slotChecksumLow then takeByteInstr .slotChecksumLow r
  else if tag = Tag.slotChecksumHigh then takeByteInstr .slotChecksumHigh r
  else if tag = Tag.slotDeviceId then takeByteInstantInstr .slotDeviceId r
  else if tag = Tag.slotStatus then takeByteInstr .slotStatus r
  else if tag = Tag.statusByte then takeStatusByte p r
  else if tag = Tag.packet then do
    let (b, r) ← takeByte r
    let (m, r) ← takePacketBody r
    .ok (packetInstr p b m, r)
  else .error (.unknownTag tag)

/-- The first input record of a tape, and the bytes after it. Total on any bytes; what is no record is rejected by name. -/
def decode (p : Params) : Reader Instr
  | [] => .error .truncated
  | tag :: r => decodeBody p tag r

/-! ### The encoder -/

/-- The byte of a level. -/
def encodeLevel (l : Level) : List Byte := [if l then 1#8 else 0#8]

/-- The two bytes of a 16-bit field, low byte first (rule R85). -/
def encodeWord16 (w : Word16) : List Byte := [lowByte w, highByte w]

/-- The eight bytes of an instant, the least significant first. -/
def encodeInstant (t : Instant) : List Byte :=
  [t.extractLsb' 0 8, t.extractLsb' 8 8, t.extractLsb' 16 8, t.extractLsb' 24 8, t.extractLsb' 32 8, t.extractLsb' 40 8,
    t.extractLsb' 48 8, t.extractLsb' 56 8]

/-- The bytes of a packet on the wire, in the order of rule R86: command, compression, data length, payload, checksum, and the
master's bytes in the two response slots. -/
def packetBytes (cmd : Byte) (m : PacketBody) : List Byte :=
  cmd :: m.compression :: encodeWord16 (BitVec.ofNat 16 m.payload.length)
    ++ m.payload ++ encodeWord16 m.checksum ++ [m.ackSlot, m.statusSlot]

/-- The record of a packet. -/
def encodePacket (cmd : Byte) (m : PacketBody) : List Byte :=
  Tag.packet :: packetBytes cmd m ++ encodeInstant m.instant

/-- The record of an instruction of an instance. -/
def encode (p : Params) : Instr → List Byte
  | .reset => [Tag.reset]
  | .edge c d t => Tag.edge :: encodeLevel c ++ encodeLevel d ++ encodeInstant t
  | .poll t => Tag.poll :: encodeInstant t
  | .clearReady => [Tag.clearReady]
  | .isReady => [Tag.isReady]
  | .getImage => [Tag.getImage]
  | .getLastCommand => [Tag.getLastCommand]
  | .stage b => [Tag.stage, b]
  | .byte b t => Tag.byte :: b :: encodeInstant t
  | .parse b t => Tag.parse :: b :: encodeInstant t
  | .sessionResync => [Tag.sessionResync]
  | .bitcell d t => Tag.bitcell :: encodeLevel d ++ encodeInstant t
  | .frame b t => Tag.frame :: b :: encodeInstant t
  | .preamble t => Tag.preamble :: highByte p.syncWord :: lowByte p.syncWord :: encodeInstant t
  | .slotCommand b => [Tag.slotCommand, b]
  | .slotCompression b => [Tag.slotCompression, b]
  | .slotLengthLow b => [Tag.slotLengthLow, b]
  | .slotLengthHigh b => [Tag.slotLengthHigh, b]
  | .slotPayload b => [Tag.slotPayload, b]
  | .slotChecksumLow b => [Tag.slotChecksumLow, b]
  | .slotChecksumHigh b => [Tag.slotChecksumHigh, b]
  | .slotDeviceId b t => Tag.slotDeviceId :: b :: encodeInstant t
  | .slotStatus b => [Tag.slotStatus, b]
  | .statusByte u f b e => [Tag.statusByte, encodeStatus p e b f u]
  | .init m => encodePacket p.cmdInit m
  | .print m => encodePacket p.cmdPrint m
  | .data m => encodePacket p.cmdData m
  | .inquiry m => encodePacket p.cmdInquiry m
  | .unknown b m => encodePacket b m

/-! ### The words of the opcode table -/

/-- The record of a word of spec/opcode_table.json: the word's bits as the row's format lays them out, every operand above them
0. The table gives bits to three formats and no context to tell them apart, so the model reads them in this order
(notes/assumptions/7.md): 16 bits are a PREAMBLE; 8 bits are a CMD byte if they are a command code, a STATUS byte if every
bit that carries no flag is 0, and a CMD byte of an unknown command otherwise. -/
def tableRecord (p : Params) (nbits w : Nat) : List Byte :=
  let operandZeros (n : Nat) : List Byte := List.replicate n 0#8
  if nbits = 16 then
    Tag.preamble :: BitVec.ofNat 8 (w / 256) :: BitVec.ofNat 8 w :: operandZeros 8
  else if nbits = 8 then
    if p.isCommandCode (BitVec.ofNat 8 w) then Tag.packet :: BitVec.ofNat 8 w :: operandZeros 15
    else if BitVec.ofNat 8 w &&& ~~~ statusMask p = 0#8 then [Tag.statusByte, BitVec.ofNat 8 w]
    else Tag.packet :: BitVec.ofNat 8 w :: operandZeros 15
  else []

/-- The instruction that the decoder reads from a word of spec/opcode_table.json, under the usual instantiation, whose command
codes and sync word are the table's `match` values (rule R95). -/
def decodeTableWord (nbits w : Nat) : Option Instr :=
  match decode Params.usual (tableRecord Params.usual nbits w) with
  | .ok (i, _) => some i
  | .error _ => none

end Sys2Proof
end

