-- ==== Sys2Proof/Machine/State.lean ====
section
/-!
DEFINITION. The state of the core (10_state.md), the model's own fields beside it, the reasons a step can stop, and the state
after reset (70_reset_and_hazards.md rule R241).
-/
namespace Sys2Proof.Machine

/-- The ten values of `parser_state`, in order (rule R33). -/
inductive ParserState where
  | command
  | compression
  | lengthLow
  | lengthHigh
  | payload
  | checksumLow
  | checksumHigh
  | deviceId
  | status
  /-- Transient: the call that enters it leaves the register at `COMMAND` (rule R157, decision D11). -/
  | packetReceived
  deriving DecidableEq, Repr

/-- `data_out`: the level last driven on the output line, or `undriven` (rule R31). -/
inductive DataOut where
  | undriven
  | level (l : Level)
  deriving DecidableEq, Repr

/-- `violation_cause` (rule R49). -/
inductive ViolationCause where
  | none
  | noPayloadTarget
  | bufferOverrun
  deriving DecidableEq, Repr

/-- The outward events of an operation (rule R11). -/
inductive Event where
  | driveOut (l : Level)
  | packetReady
  | protocolViolation (cause : ViolationCause)
  | timeoutFired
  | printFinished
  deriving DecidableEq, Repr

/-- What a call of `PARSE` returns (rule R140): at most one event, internal to the operation (rule R11). -/
inductive ParserEvent where
  | none
  | transmitByte (b : Byte)
  | packetReady
  deriving DecidableEq, Repr

/-- What an operation returns to its caller (rule R81): a query's answer, or the event of `PARSE` or of a part of it. -/
inductive Result where
  /-- `IS_READY` (rule R189). -/
  | ready (b : Bool)
  /-- `GET_IMAGE`: the bytes of `image_buffer`, offset 0 first (rule R190). -/
  | image (bytes : List Byte)
  /-- `GET_LAST_COMMAND` (rule R191). -/
  | command (c : Command)
  /-- `PARSE`, a byte slot or `STATUS_BYTE` (rule R140). -/
  | parserEvent (ev : ParserEvent)
  deriving DecidableEq, Repr

/-- SyncState, owned by the streamer (10_state.md section 2), and the output line (rule R31). -/
structure SyncState where
  /-- rule R21 -/
  initialized : Bool
  /-- rule R22 -/
  previousClockLevel : Level
  /-- rule R23 -/
  synchronized : Bool
  /-- rule R24 -/
  syncShiftRegister : Word16
  /-- rule R25 -/
  bitPosition : BitVec 3
  /-- rule R26 -/
  rxAccumulator : Byte
  /-- rule R27 -/
  txStaged : Byte
  /-- rule R28 -/
  txStagedValid : Bool
  /-- rule R29 -/
  txActive : Byte
  /-- rule R31 -/
  dataOut : DataOut
  deriving DecidableEq, Repr

/-- Packet, owned by the parser (10_state.md section 4). -/
structure Packet where
  /-- rule R34 -/
  command : Command
  /-- rule R35 -/
  compressionFlag : Byte
  /-- rule R36 -/
  dataLength : Word16
  /-- rule R37: `NONE`, `SETTINGS` or `IMAGE`. -/
  payloadTarget : Option BufferTag
  /-- rule R38: unsigned, 17 bits. -/
  payloadIndex : BitVec 17
  /-- rule R39 -/
  checksumReceived : Word16
  /-- rule R40 -/
  checksumComputed : Word16
  /-- rule R41 -/
  deviceAckByte : Byte
  /-- rule R42 -/
  statusByte : Byte
  deriving DecidableEq, Repr

/-- PrinterStatus, which persists across packets (rule R44). -/
structure PrinterStatus where
  checksumError : Bool
  unprocessedDataPresent : Bool
  printBufferFull : Bool
  printerBusy : Bool
  deriving DecidableEq, Repr

/-- The Session: all state of the core (rule R20), and after it the model's own fields. A buffer is the list of its written
bytes, offset and byte, in the canonical form `Buffer.wf` of Machine/Ops.lean (rule R51, 20_memory.md). -/
structure State where
  /-- SyncState. -/
  sync : SyncState
  /-- rule R33 -/
  parserState : ParserState
  /-- Packet. -/
  packet : Packet
  /-- PrinterStatus. -/
  printer : PrinterStatus
  /-- rule R46 -/
  readyFlag : Bool
  /-- rule R47 -/
  timeoutDeadline : Instant
  /-- rule R48 -/
  pretendPrintDeadline : Option Instant
  /-- rule R49 -/
  violationFlag : Bool
  /-- rule R49 -/
  violationCause : ViolationCause
  /-- rule R50 -/
  halted : Bool
  /-- rule R51 -/
  settingsBuffer : List Host.Cell
  /-- rule R51 -/
  imageBuffer : List Host.Cell
  /-- MODEL: the parameters of the instance, written by no operation (rule R6). -/
  params : Params
  /-- MODEL: the inputs that the collaborators have still to invoke, as records of Decode.lean; `step` takes the first. -/
  inputs : List Byte
  /-- MODEL: the event list that the last operation yielded (rule R11). -/
  events : List Event
  /-- MODEL: what the last operation returned (rule R81). -/
  result : Option Result
  /-- MODEL: the number of `RESET` operations so far, which the free value `Config.unwrittenByte` is applied to. -/
  epoch : Nat
  deriving DecidableEq, Repr

/-- The faults. No run from `State.reset` over the inputs that the spec's collaborators can cause reaches one
("Every operation returns normally for every argument value", rule R220). -/
inductive Fault where
  /-- Raised by `PARSE` (and so by `BYTE` and a byte-completing `EDGE`) in a state that rests in `PACKET_RECEIVED`, which rule
  R140 calls unreachable. Safe: the model stops where the core cannot be. -/
  | restingPacketReceived
  /-- Raised by the payload write of `SLOT_PAYLOAD`, and of `PARSE` in `PAYLOAD`, when `payload_target` is `NONE`: there is no
  such buffer (rule R61, rule R146). Safe: the core enters `PAYLOAD` with a target only. -/
  | noSuchBuffer
  deriving DecidableEq, Repr

/-- The refusals. -/
inductive Refusal where
  /-- Raised by `exec` for an instruction that has no meaning yet. Safe. -/
  | notModelled (mnemonic : String)
  /-- Raised by `step` when the bytes at the head of the inputs are no record of an operation. Safe: no collaborator invokes such a
  thing. -/
  | undecodable (e : DecodeError)
  /-- Raised by `step` for an instantiation that rule R7 does not admit ("A model refuses an instantiation that breaks a
  constraint"; 93_implementation_defined.md U2). Safe. -/
  | instantiation
  deriving DecidableEq, Repr

/-- The pre-sync values of rule R30, over the three elements that it does not write. -/
def SyncState.preSync (y : SyncState) : SyncState :=
  { y with
    synchronized := false
    syncShiftRegister := 0#16
    bitPosition := 7#3
    rxAccumulator := 0#8
    txStaged := 0#8
    txStagedValid := false
    txActive := 0#8 }

/-- SyncState after `RESET` (rule R241). `previous_clock_level` is unspecified there and "a model may use 0"
(notes/assumptions/3.md). -/
def SyncState.reset : SyncState where
  initialized := false
  previousClockLevel := false
  synchronized := false
  syncShiftRegister := 0x0000#16
  bitPosition := 7#3
  rxAccumulator := 0x00#8
  txStaged := 0x00#8
  txStagedValid := false
  txActive := 0x00#8
  dataOut := .undriven

/-- Packet after `RESET` (rule R241). -/
def Packet.reset : Packet where
  command := .unknown
  compressionFlag := 0x00#8
  dataLength := 0#16
  payloadTarget := none
  payloadIndex := 0#17
  checksumReceived := 0x0000#16
  checksumComputed := 0x0000#16
  deviceAckByte := 0x00#8
  statusByte := 0x00#8

/-- PrinterStatus after `RESET` (rule R241). -/
def PrinterStatus.reset : PrinterStatus where
  checksumError := false
  unprocessedDataPresent := false
  printBufferFull := false
  printerBusy := false

/-- The core right after `RESET` (rule R241), with no byte of a buffer written, in the usual instantiation, and with no input
pending. -/
def State.reset : State where
  sync := SyncState.reset
  parserState := .command
  packet := Packet.reset
  printer := PrinterStatus.reset
  readyFlag := false
  timeoutDeadline := 0#64
  pretendPrintDeadline := none
  violationFlag := false
  violationCause := .none
  halted := false
  settingsBuffer := []
  imageBuffer := []
  params := Params.usual
  inputs := []
  events := []
  result := none
  epoch := 0

end Sys2Proof.Machine
end

