-- ==== Sys2Proof/Machine/Operands.lean ====
section
/-!
DEFINITION. The operand forms: how bits make the sync register, a byte and a 16-bit field, and what a command selects.
-/
namespace Sys2Proof.Machine

/-- The bits of a value, most significant first: the order of the wire (rule R64, rule R119). -/
def msbFirst (n : Nat) (v : BitVec n) : List Level :=
  (List.range n).map v.getMsbD

/-- `trunc_16((register << 1) | zext_16(d))`: a level enters the sync register, the old bit 15 is dropped (rule R113). -/
def shiftIn (register : Word16) (d : Level) : Word16 :=
  (register <<< 1) ||| (BitVec.ofBool d).setWidth 16

/-- `if d == 1: rx_accumulator[position] <- 1`: a 0 level writes nothing (rule R114). -/
def mergeBit (accumulator : Byte) (position : BitVec 3) (d : Level) : Byte :=
  if d then accumulator ||| (1#8 <<< position.toNat) else accumulator

/-- `v[position]` (rule R116). -/
def bitAt (v : Byte) (position : BitVec 3) : Level := v.getLsbD position.toNat

/-- `field[7:0] <- b` of a 16-bit field (rule R144, rule R150). -/
def withLowByte (field : Word16) (b : Byte) : Word16 := assemble16 b (highByte field)

/-- `field[15:8] <- b` of a 16-bit field (rule R145, rule R151). -/
def withHighByte (field : Word16) (b : Byte) : Word16 := assemble16 (lowByte field) b

/-- `target_of`: the payload target of a command (rule R147). -/
def targetOf : Command → Option BufferTag
  | .init => none
  | .inquiry => none
  | .data => some .image
  | .print => some .settings
  | .unknown => none

/-- `trunc_64(t + duration)`: a deadline (rule R10). -/
def deadline (t duration : Instant) : Instant := t + duration

/-- The `EDGE` operations of one bit cell: the falling edge, then the rising edge (rule R82); the level given to the falling edge
is the same `d`, as in rule R97, and is ignored. -/
def cellEdges (d : Level) : List (Level × Level) := [(false, d), (true, d)]

/-- The `EDGE` operations of the bit cells of a list of levels. -/
def levelEdges (ds : List Level) : List (Level × Level) := ds.flatMap cellEdges

/-- The `EDGE` operations of one byte frame: bit 7 in the first bit cell (rule R83, `SEND b` of rule R97). -/
def frameEdges (b : Byte) : List (Level × Level) := levelEdges (msbFirst 8 b)

/-- The `EDGE` operations of a byte sequence, one frame per byte. -/
def sendEdges (bs : List Byte) : List (Level × Level) := bs.flatMap frameEdges

/-- The `EDGE` operations of the preamble: `SYNC_WORD[15]` first (rule R84). -/
def preambleEdges (syncWord : Word16) : List (Level × Level) := levelEdges (msbFirst 16 syncWord)

end Sys2Proof.Machine
end

