-- ==== Sys2Proof/Machine/Flags.lean ====
section
/-!
DEFINITION. The flag and sum computations: the checksum accumulator, the comparison, the PrinterStatus flags and the status byte,
the expiry conditions, and the codes of the error conditions.
-/
namespace Sys2Proof.Machine

/-- `trunc_16(checksum_computed + zext_16(b))` (rule R158). -/
def addToChecksum (sum : Word16) (b : Byte) : Word16 := sum + b.setWidth 16

/-- `checksum_computed != checksum_received` (rule R154, rule R155). -/
def checksumDiffers (k : Packet) : Bool := k.checksumComputed != k.checksumReceived

/-- The four flags that the entry action of `STATUS` leaves (rule R154): `checksum_error` is assigned; `DATA` sets
`unprocessed_data_present`; `PRINT` clears it and sets `print_buffer_full` and `printer_busy`. -/
def statusEntryFlags (k : Packet) (f : PrinterStatus) : PrinterStatus :=
  let f := { f with checksumError := checksumDiffers k }
  match k.command with
  | .data => { f with unprocessedDataPresent := true }
  | .print => { f with unprocessedDataPresent := false, printBufferFull := true, printerBusy := true }
  | .init | .inquiry | .unknown => f

/-- The pretend-print deadline that the entry action of `STATUS` leaves: `PRINT` arms it (rule R154). -/
def statusEntryDeadline (p : Params) (c : Command) (t : Instant) (old : Option Instant) : Option Instant :=
  match c with
  | .print => some (deadline t p.pretendPrintDuration)
  | .init | .data | .inquiry | .unknown => old

/-- The status byte of the four flags (rule R92). -/
def statusOf (p : Params) (f : PrinterStatus) : Byte :=
  encodeStatus p f.checksumError f.printerBusy f.printBufferFull f.unprocessedDataPresent

/-- The end test of `PAYLOAD`, on unbounded integers: `payload_index >= data_length + PAYLOAD_EXTRA` (rule R148, rule R159). -/
def payloadComplete (p : Params) (index : BitVec 17) (length : Word16) : Bool :=
  decide (length.toNat + p.payloadExtra.val ≤ index.toNat)

/-- `pretend_print_deadline != none and t >= pretend_print_deadline`, unsigned (rule R184, rule R185). -/
def printElapsed (pretend : Option Instant) (t : Instant) : Bool :=
  match pretend with
  | none => false
  | some limit => decide (limit ≤ t)

/-- `parser_state != COMMAND and t > timeout_deadline`, unsigned (rule R187). -/
def timeoutElapsed (ps : ParserState) (limit t : Instant) : Bool :=
  ps != .command && decide (limit < t)

/-- The code that `violation_cause` holds (rule R49, rule R210): 2 bits. -/
def ViolationCause.code : ViolationCause → BitVec 2
  | .none => 0#2
  | .noPayloadTarget => 1#2
  | .bufferOverrun => 2#2

end Sys2Proof.Machine
end

