-- ==== Sys2Proof/Machine/Ops.lean ====
section
/-!
DEFINITION. The operations that the meanings share: the buffers, the yields of an operation, `STAGE`, the forced
resynchronisation, taking a protocol violation, and running one part of an operation after another.

There is no return from an exception: rule R217 ("There is no return operation"). After `raiseViolation` the core is in normal
operation, or halted until `RESET`.
-/
namespace Sys2Proof.Machine

/-- The outcome of an operation. -/
abbrev Outcome := Host.Outcome State Fault Refusal

/-- The outcome of `PARSE` and its parts: the state and the event returned (rule R140). -/
abbrev Parsed := Host.Outcome (State × ParserEvent) Fault Refusal

/-- Run `f` after an outcome; a fault or a refusal ends the operation. -/
def andThen {α β : Type} (o : Host.Outcome α Fault Refusal) (f : α → Host.Outcome β Fault Refusal) :
    Host.Outcome β Fault Refusal :=
  match o with
  | .next a => f a
  | .fault r => .fault r
  | .refused r => .refused r

/-! ### The buffers (20_memory.md) -/

/-- The byte written last at an offset; `none` where nothing has been written since `RESET`: the byte holds no defined value
(rule R241). -/
def Buffer.read (buf : List Host.Cell) (off : Nat) : Option Byte :=
  match buf with
  | [] => none
  | (a, v) :: rest => if a = off then some v else Buffer.read rest off

/-- Write a byte at an offset, keeping the offsets rising and without repeats. -/
def Buffer.write (buf : List Host.Cell) (off : Nat) (v : Byte) : List Host.Cell :=
  match buf with
  | [] => [(off, v)]
  | (a, w) :: rest =>
    if off < a then (off, v) :: (a, w) :: rest
    else if off = a then (off, v) :: rest
    else (a, w) :: Buffer.write rest off v

/-- The canonical form of a buffer: offsets strictly rising. An unlisted offset reads as no value, which no entry equals, so
equal contents are equal lists. -/
def Buffer.wf (buf : List Host.Cell) : Bool :=
  match buf with
  | [] => true
  | [_] => true
  | (a, _) :: (b, w) :: rest => decide (a < b) && Buffer.wf ((b, w) :: rest)

/-- The buffer of a tag (rule R61). -/
def State.buffer (s : State) : BufferTag → List Host.Cell
  | .settings => s.settingsBuffer
  | .image => s.imageBuffer

/-- `MemRead(buf, off, 1)` (rule R62): the byte written last, or, at an offset not written since `RESET`, the free value. -/
def State.memRead (s : State) (tag : BufferTag) (off : Nat) : Byte :=
  match Buffer.read (s.buffer tag) off with
  | some v => v
  | none => Config.unwrittenByte tag s.epoch off

/-- `MemWrite(buf, off, 1, v)` (rule R62). The caller has checked the bounds (rule R73). -/
def State.memWrite (s : State) (tag : BufferTag) (off : Nat) (v : Byte) : State :=
  match tag with
  | .settings => { s with settingsBuffer := Buffer.write s.settingsBuffer off v }
  | .image => { s with imageBuffer := Buffer.write s.imageBuffer off v }

/-- The contents of `image_buffer`, offset 0 first (rule R190). -/
def State.imageBytes (s : State) : List Byte :=
  (List.range s.params.imageCapacity).map (s.memRead .image)

/-! ### What an operation yields -/

/-- An operation begins with an empty event list and no result (rule R5, rule R11). -/
def State.start (s : State) : State := { s with events := [], result := none }

/-- `emit E` (rule R9). -/
def State.emit (s : State) (e : Event) : State := { s with events := s.events ++ [e] }

/-- Return a value to the caller (rule R81). -/
def State.answer (s : State) (r : Result) : State := { s with result := some r }

/-- Return the event of `PARSE`, or of a part of it, to the caller. -/
def answerEvent (r : State × ParserEvent) : State := r.1.answer (.parserEvent r.2)

/-! ### `STAGE`, the resynchronisation, the violation -/

/-- `STAGE(b)` (rule R118). -/
def State.stageByte (s : State) (b : Byte) : State :=
  { s with sync := { s.sync with txStaged := b, txStagedValid := true } }

/-- `SESSION_RESYNC` (rule R186): the pre-sync assignment of rule R30, and `parser_state <- COMMAND`; nothing else. -/
def State.resync (s : State) : State :=
  { s with sync := s.sync.preSync, parserState := .command }

/-- The record and the report of a violation (rule R214, first four lines). -/
def State.recordViolation (s : State) (cause : ViolationCause) : State :=
  { s with
    violationFlag := true
    violationCause := cause
    printer := { s.printer with checksumError := true }
    events := s.events ++ [.protocolViolation cause] }

/-- Violation entry, `raise ProtocolViolation(cause)` (rule R214; the halt variant is rule R216). -/
def State.raiseViolation (s : State) (cause : ViolationCause) : State :=
  match s.params.violationPolicy with
  | .resync => (s.recordViolation cause).resync
  | .halt => { s.recordViolation cause with halted := true }

/-- The assignment of `RESET` (rule R240, rule R241). The buffers' contents become unknown afresh; the model's inputs and the
parameters are no state of the core and stay. -/
def State.resetAll (s : State) : State :=
  { State.reset with params := s.params, inputs := s.inputs, epoch := s.epoch + 1 }

end Sys2Proof.Machine
end

