-- ==== Sys2Proof/Machine/Parser.lean ====
section
/-!
DEFINITION. The packet parser (41_parser.md): one function per parser state, the entry actions, and `PARSE`; then the meanings of
the rows `PARSE`, `SLOT_…` and `STATUS_BYTE`.

A slot's row is its function's pseudocode, in whatever state it is called; in the core only `PARSE` calls it, and only in the
parser state of the row (notes/assumptions/9.md).
-/
namespace Sys2Proof.Machine

/-! ### The entry actions (rule R161) -/

/-- Enter `CHECKSUM_LOW`: `checksum_received <- 0` (rule R150, decision D14). -/
def enterChecksumLow (s : State) : State :=
  { s with parserState := .checksumLow, packet := { s.packet with checksumReceived := 0#16 } }

/-- Enter `PAYLOAD`: select the target by the command, clear the index (rule R146). -/
def enterPayload (s : State) : State :=
  { s with
    parserState := .payload
    packet := { s.packet with payloadTarget := targetOf s.packet.command, payloadIndex := 0#17 } }

/-- Enter `DEVICE_ID`: record and transmit the constant (rule R152). -/
def enterDeviceId (s : State) : State × ParserEvent :=
  ({ s with parserState := .deviceId, packet := { s.packet with deviceAckByte := s.params.deviceId } },
    .transmitByte s.params.deviceId)

/-- Compute, record and transmit the status byte of four flags (rule R92; the last two lines of rule R154). -/
def produceStatus (f : PrinterStatus) (s : State) : State × ParserEvent :=
  ({ s with packet := { s.packet with statusByte := statusOf s.params f } }, .transmitByte (statusOf s.params f))

/-- Enter `STATUS` (rule R154). -/
def enterStatus (t : Instant) (s : State) : State × ParserEvent :=
  produceStatus (statusEntryFlags s.packet s.printer)
    { s with
      parserState := .status
      printer := statusEntryFlags s.packet s.printer
      pretendPrintDeadline := statusEntryDeadline s.params s.packet.command t s.pretendPrintDeadline }

/-- Enter `PACKET_RECEIVED`, and the restart in the same call (rule R157). -/
def enterPacketReceived (s : State) : State × ParserEvent :=
  ({ s with parserState := .command }, .packetReady)

/-! ### One function per state (41_parser.md section 2) -/

/-- State `COMMAND` (rule R142): the header fields and the sum are cleared, then the byte is decoded and summed. -/
def consumeCommand (b : Byte) (s : State) : State × ParserEvent :=
  ({ s with
      parserState := .compression
      packet := { s.packet with
        command := decodeCommand s.params b
        compressionFlag := 0#8
        dataLength := 0#16
        checksumComputed := addToChecksum 0#16 b } },
    .none)

/-- State `COMPRESSION`, and the entry action of `LENGTH_LOW` (rule R143). -/
def consumeCompression (b : Byte) (s : State) : State × ParserEvent :=
  ({ s with
      parserState := .lengthLow
      packet := { s.packet with
        compressionFlag := b
        checksumComputed := addToChecksum s.packet.checksumComputed b
        dataLength := 0#16 } },
    .none)

/-- State `LENGTH_LOW` (rule R144). -/
def consumeLengthLow (b : Byte) (s : State) : State × ParserEvent :=
  ({ s with
      parserState := .lengthHigh
      packet := { s.packet with
        dataLength := withLowByte s.packet.dataLength b
        checksumComputed := addToChecksum s.packet.checksumComputed b } },
    .none)

/-- The high length byte is stored and summed (rule R145, first two lines). -/
def storeLengthHigh (b : Byte) (s : State) : State :=
  { s with
    packet := { s.packet with
      dataLength := withHighByte s.packet.dataLength b
      checksumComputed := addToChecksum s.packet.checksumComputed b } }

/-- The length-field policy, once both length bytes are in (rule R145). -/
def applyLengthPolicy (s : State) : State :=
  if s.packet.dataLength = 0#16 then enterChecksumLow s
  else if targetOf s.packet.command = none then s.raiseViolation .noPayloadTarget
  else enterPayload s

/-- State `LENGTH_HIGH` and the length-field policy (rule R145). -/
def consumeLengthHigh (b : Byte) (s : State) : State × ParserEvent :=
  (applyLengthPolicy (storeLengthHigh b s), .none)

/-- The capacity that `PAYLOAD` compares with: `SETTINGS_BUFFER_CAPACITY` for the target `SETTINGS`, else
`IMAGE_BUFFER_CAPACITY` (rule R148). -/
def payloadCapacity (p : Params) : Option BufferTag → Nat
  | some .settings => p.settingsCapacity
  | _ => p.imageCapacity

/-- A payload byte is stored at the index, summed and counted (rule R148). -/
def storePayload (tag : BufferTag) (b : Byte) (s : State) : State :=
  { s.memWrite tag s.packet.payloadIndex.toNat b with
    packet := { s.packet with
      checksumComputed := addToChecksum s.packet.checksumComputed b
      payloadIndex := s.packet.payloadIndex + 1#17 } }

/-- `PAYLOAD` is left when the payload is complete (rule R148). -/
def leavePayload (s : State) : State :=
  if payloadComplete s.params s.packet.payloadIndex s.packet.dataLength then enterChecksumLow s else s

/-- State `PAYLOAD` (rule R148): the bounds check comes first; on a violation the byte is neither stored nor summed. -/
def consumePayload (b : Byte) (s : State) : Parsed :=
  if payloadCapacity s.params s.packet.payloadTarget ≤ s.packet.payloadIndex.toNat then
    .next (s.raiseViolation .bufferOverrun, .none)
  else
    match s.packet.payloadTarget with
    | none => .fault .noSuchBuffer
    | some tag => .next (leavePayload (storePayload tag b s), .none)

/-- State `CHECKSUM_LOW` (rule R150): not summed. -/
def consumeChecksumLow (b : Byte) (s : State) : State × ParserEvent :=
  ({ s with
      parserState := .checksumHigh
      packet := { s.packet with checksumReceived := withLowByte s.packet.checksumReceived b } },
    .none)

/-- State `CHECKSUM_HIGH` (rule R151): not summed; the entry action of `DEVICE_ID` follows. -/
def consumeChecksumHigh (b : Byte) (s : State) : State × ParserEvent :=
  enterDeviceId { s with packet := { s.packet with checksumReceived := withHighByte s.packet.checksumReceived b } }

/-- State `DEVICE_ID` (rule R153): the master's byte is neither stored nor summed. -/
def consumeDeviceId (_b : Byte) (t : Instant) (s : State) : State × ParserEvent := enterStatus t s

/-- State `STATUS` (rule R156): the master's byte is neither stored nor summed. -/
def consumeStatus (_b : Byte) (s : State) : State × ParserEvent := enterPacketReceived s

/-- `PARSE(b, t)` (rule R140): the current state consumes the byte. -/
def parse (b : Byte) (t : Instant) (s : State) : Parsed :=
  match s.parserState with
  | .command => .next (consumeCommand b s)
  | .compression => .next (consumeCompression b s)
  | .lengthLow => .next (consumeLengthLow b s)
  | .lengthHigh => .next (consumeLengthHigh b s)
  | .payload => consumePayload b s
  | .checksumLow => .next (consumeChecksumLow b s)
  | .checksumHigh => .next (consumeChecksumHigh b s)
  | .deviceId => .next (consumeDeviceId b t s)
  | .status => .next (consumeStatus b s)
  | .packetReceived => .fault .restingPacketReceived

/-! ### The meanings -/

/-- PARSE (rule R140). -/
def execParse (b : Byte) (t : Instant) (s : State) : Outcome :=
  andThen (parse b t s.start) fun r => .next (answerEvent r)

/-- SLOT_COMMAND (rule R142). -/
def execSlotCommand (b : Byte) (s : State) : Outcome := .next (answerEvent (consumeCommand b s.start))

/-- SLOT_COMPRESSION (rule R143). -/
def execSlotCompression (b : Byte) (s : State) : Outcome := .next (answerEvent (consumeCompression b s.start))

/-- SLOT_LENGTH_LOW (rule R144). -/
def execSlotLengthLow (b : Byte) (s : State) : Outcome := .next (answerEvent (consumeLengthLow b s.start))

/-- SLOT_LENGTH_HIGH (rule R145). -/
def execSlotLengthHigh (b : Byte) (s : State) : Outcome := .next (answerEvent (consumeLengthHigh b s.start))

/-- SLOT_PAYLOAD (rule R148). -/
def execSlotPayload (b : Byte) (s : State) : Outcome :=
  andThen (consumePayload b s.start) fun r => .next (answerEvent r)

/-- SLOT_CHECKSUM_LOW (rule R150). -/
def execSlotChecksumLow (b : Byte) (s : State) : Outcome := .next (answerEvent (consumeChecksumLow b s.start))

/-- SLOT_CHECKSUM_HIGH (rule R151). -/
def execSlotChecksumHigh (b : Byte) (s : State) : Outcome := .next (answerEvent (consumeChecksumHigh b s.start))

/-- SLOT_DEVICE_ID (rule R153). -/
def execSlotDeviceId (b : Byte) (t : Instant) (s : State) : Outcome := .next (answerEvent (consumeDeviceId b t s.start))

/-- SLOT_STATUS (rule R156). -/
def execSlotStatus (b : Byte) (s : State) : Outcome := .next (answerEvent (consumeStatus b s.start))

/-- STATUS_BYTE (rule R92): the status byte of the four flags given is computed, recorded and returned for transmission, as the
entry action of `STATUS` does with the flags of PrinterStatus (rule R154). -/
def execStatusByte (u f b e : Bool) (s : State) : Outcome :=
  .next (answerEvent (produceStatus
    { checksumError := e, unprocessedDataPresent := u, printBufferFull := f, printerBusy := b } s.start))

end Sys2Proof.Machine
end

