-- ==== Sys2Proof/Machine/Session.lean ====
section
/-!
DEFINITION. The session controller and the host-side operations (42_session.md), and `RESET` (70_reset_and_hazards.md).
-/
namespace Sys2Proof.Machine

/-- `packet_ready()` (rule R182), with the optional loss of synchronisation (rule R183). -/
def packetReady (s : State) : State :=
  if s.params.resyncAfterPacket then ({ s with readyFlag := true }.emit .packetReady).resync
  else { s with readyFlag := true }.emit .packetReady

/-- The dispatch of the event of `PARSE` (rule R180). -/
def dispatchEvent (r : State × ParserEvent) : State :=
  match r.2 with
  | .transmitByte x => r.1.stageByte x
  | .packetReady => packetReady r.1
  | .none => r.1

/-- `timeout_deadline <- trunc_64(t + TIMEOUT_WINDOW)` (rule R181). -/
def pushDeadline (t : Instant) (s : State) : State :=
  { s with timeoutDeadline := deadline t s.params.timeoutWindow }

/-- `BYTE(b, t)` (rule R180): the parser, then the dispatch of its event, then the deadline, also after a violation. -/
def completeByte (b : Byte) (t : Instant) (s : State) : Outcome :=
  andThen (parse b t s) fun r => .next (pushDeadline t (dispatchEvent r))

/-- The pretend-print check of `POLL` (rule R185). -/
def checkPrint (t : Instant) (s : State) : State :=
  if printElapsed s.pretendPrintDeadline t then
    { s with
      printer := { s.printer with printerBusy := false, printBufferFull := false }
      pretendPrintDeadline := none }.emit .printFinished
  else s

/-- The inactivity check of `POLL` (rule R187). -/
def checkTimeout (t : Instant) (s : State) : State :=
  if timeoutElapsed s.parserState s.timeoutDeadline t then s.resync.emit .timeoutFired else s

/-! ### The meanings -/

/-- RESET (rule R240). -/
def execReset (s : State) : Outcome := .next s.resetAll

/-- BYTE (rule R180). -/
def execByte (b : Byte) (t : Instant) (s : State) : Outcome := completeByte b t s.start

/-- SESSION_RESYNC (rule R186). -/
def execSessionResync (s : State) : Outcome := .next s.start.resync

/-- POLL (rule R184). -/
def execPoll (t : Instant) (s : State) : Outcome :=
  if s.halted then .next s.start else .next (checkTimeout t (checkPrint t s.start))

/-- CLEAR_READY (rule R188). -/
def execClearReady (s : State) : Outcome :=
  if s.halted then .next s.start else .next { s.start with readyFlag := false }

/-- IS_READY (rule R189). -/
def execIsReady (s : State) : Outcome := .next (s.start.answer (.ready s.readyFlag))

/-- GET_IMAGE (rule R190). -/
def execGetImage (s : State) : Outcome := .next (s.start.answer (.image s.imageBytes))

/-- GET_LAST_COMMAND (rule R191). -/
def execGetLastCommand (s : State) : Outcome := .next (s.start.answer (.command s.packet.command))

end Sys2Proof.Machine
end

