-- ==== Sys2Proof/Machine/Streamer.lean ====
section
/-!
DEFINITION. The streamer (40_streamer.md): `EDGE` and its parts, and the meanings of `EDGE` and `STAGE`.
-/
namespace Sys2Proof.Machine

/-- Rising edge, not synchronized (rule R113): shift, compare after the shift. -/
def preambleScan (d : Level) (s : State) : State :=
  if shiftIn s.sync.syncShiftRegister d = s.params.syncWord then
    { s with
      sync := { s.sync with
        syncShiftRegister := shiftIn s.sync.syncShiftRegister d
        synchronized := true
        bitPosition := 7#3 } }
  else { s with sync := { s.sync with syncShiftRegister := shiftIn s.sync.syncShiftRegister d } }

/-- `rx_accumulator <- 0; bit_position <- 7` (rule R115). -/
def beginFrame (s : State) : State :=
  { s with sync := { s.sync with rxAccumulator := 0#8, bitPosition := 7#3 } }

/-- Rising edge, synchronized (rule R114), and the completion of a byte (rule R115): the streamer's registers are updated before
the parser runs. -/
def receiveBit (d : Level) (t : Instant) (s : State) : Outcome :=
  if s.sync.bitPosition = 0#3 then
    completeByte (mergeBit s.sync.rxAccumulator s.sync.bitPosition d) t (beginFrame s)
  else
    .next { s with
      sync := { s.sync with
        rxAccumulator := mergeBit s.sync.rxAccumulator s.sync.bitPosition d
        bitPosition := s.sync.bitPosition - 1#3 } }

/-- The load of `tx_active` at the start of a byte cycle (rule R116): the staged byte if one was staged since the last load, else
zeros; nothing is staged afterwards. -/
def loadTransmit (y : SyncState) : SyncState :=
  { y with
    txActive := if y.bitPosition = 7#3 then (if y.txStagedValid then y.txStaged else 0#8) else y.txActive
    txStagedValid := if y.bitPosition = 7#3 then false else y.txStagedValid }

/-- Falling edge, synchronized (rule R116). -/
def transmitBit (s : State) : State :=
  { s with
    sync := { loadTransmit s.sync with
      dataOut := .level (bitAt (loadTransmit s.sync).txActive s.sync.bitPosition) } }.emit
    (.driveOut (bitAt (loadTransmit s.sync).txActive s.sync.bitPosition))

/-- `previous_clock_level <- c` (rule R110). -/
def recordLevel (c : Level) (s : State) : State :=
  { s with sync := { s.sync with previousClockLevel := c } }

/-- An edge, once its level is recorded: rising or falling, synchronized or not (rule R110). -/
def actOnEdge (c d : Level) (t : Instant) (s : State) : Outcome :=
  match c, s.sync.synchronized with
  | true, false => .next (preambleScan d s)
  | true, true => receiveBit d t s
  | false, true => .next (transmitBit s)
  | false, false => .next s

/-- `EDGE(c, d, t)` (rule R110), with the first call (rule R111), an unchanged level (rule R112), and a falling edge while not
synchronized (rule R117). -/
def edge (c d : Level) (t : Instant) (s : State) : Outcome :=
  if s.halted then .next s
  else if s.sync.initialized = false then
    .next { s with sync := { s.sync with initialized := true, previousClockLevel := c } }
  else if c = s.sync.previousClockLevel then .next s
  else actOnEdge c d t (recordLevel c s)

/-- A sequence of `EDGE` operations at one instant, applied in order. -/
def edges (es : List (Level × Level)) (t : Instant) (s : State) : Outcome :=
  match es with
  | [] => .next s
  | (c, d) :: rest => andThen (edge c d t s) (edges rest t)

/-! ### The meanings -/

/-- EDGE (rule R110). -/
def execEdge (c d : Level) (t : Instant) (s : State) : Outcome := edge c d t s.start

/-- STAGE (rule R118). -/
def execStage (b : Byte) (s : State) : Outcome := .next (s.start.stageByte b)

end Sys2Proof.Machine
end

