-- ==== Sys2Proof/Machine/Wire.lean ====
section
/-!
DEFINITION. The wire formats and the packets of the five commands: the `EDGE` operations that they are made of, run in order
(30_encoding.md rule R82 to rule R86 and rule R97). The events are those of all the edges.
-/
namespace Sys2Proof.Machine

/-- BITCELL (rule R82; `BIT d @t` of rule R97). -/
def execBitcell (d : Level) (t : Instant) (s : State) : Outcome := edges (cellEdges d) t s.start

/-- FRAME (rule R83; `SEND b @t` of rule R97). -/
def execFrame (b : Byte) (t : Instant) (s : State) : Outcome := edges (frameEdges b) t s.start

/-- PREAMBLE (rule R84; `PREAMBLE @t` of rule R97). -/
def execPreamble (t : Instant) (s : State) : Outcome := edges (preambleEdges s.params.syncWord) t s.start

/-- The frames of one packet (rule R86; `PACKET … @t` of rule R97). -/
def sendPacket (cmd : Byte) (m : PacketBody) (s : State) : Outcome :=
  edges (sendEdges (packetBytes cmd m)) m.instant s.start

/-- INIT (rule R163). -/
def execInit (m : PacketBody) (s : State) : Outcome := sendPacket s.params.cmdInit m s

/-- PRINT (rule R163). -/
def execPrint (m : PacketBody) (s : State) : Outcome := sendPacket s.params.cmdPrint m s

/-- DATA (rule R163). -/
def execData (m : PacketBody) (s : State) : Outcome := sendPacket s.params.cmdData m s

/-- INQUIRY (rule R163). -/
def execInquiry (m : PacketBody) (s : State) : Outcome := sendPacket s.params.cmdInquiry m s

/-- UNKNOWN (rule R89, rule R163). -/
def execUnknown (b : Byte) (m : PacketBody) (s : State) : Outcome := sendPacket b m s

end Sys2Proof.Machine
end

