-- ==== Sys2Proof/Machine/Dispatch.lean ====
section
/-!
DEFINITION. One arm per constructor of `Instr`: the call of its meaning.
-/
namespace Sys2Proof.Machine

def exec (i : Instr) (s : State) : Host.Outcome State Fault Refusal :=
  match i with
  | .reset => Sys2Proof.Machine.execReset s
  | .edge c d t => Sys2Proof.Machine.execEdge c d t s
  | .poll t => Sys2Proof.Machine.execPoll t s
  | .clearReady => Sys2Proof.Machine.execClearReady s
  | .isReady => Sys2Proof.Machine.execIsReady s
  | .getImage => Sys2Proof.Machine.execGetImage s
  | .getLastCommand => Sys2Proof.Machine.execGetLastCommand s
  | .stage b => Sys2Proof.Machine.execStage b s
  | .byte b t => Sys2Proof.Machine.execByte b t s
  | .parse b t => Sys2Proof.Machine.execParse b t s
  | .sessionResync => Sys2Proof.Machine.execSessionResync s
  | .bitcell d t => Sys2Proof.Machine.execBitcell d t s
  | .frame b t => Sys2Proof.Machine.execFrame b t s
  | .preamble t => Sys2Proof.Machine.execPreamble t s
  | .slotCommand b => Sys2Proof.Machine.execSlotCommand b s
  | .slotCompression b => Sys2Proof.Machine.execSlotCompression b s
  | .slotLengthLow b => Sys2Proof.Machine.execSlotLengthLow b s
  | .slotLengthHigh b => Sys2Proof.Machine.execSlotLengthHigh b s
  | .slotPayload b => Sys2Proof.Machine.execSlotPayload b s
  | .slotChecksumLow b => Sys2Proof.Machine.execSlotChecksumLow b s
  | .slotChecksumHigh b => Sys2Proof.Machine.execSlotChecksumHigh b s
  | .slotDeviceId b t => Sys2Proof.Machine.execSlotDeviceId b t s
  | .slotStatus b => Sys2Proof.Machine.execSlotStatus b s
  | .statusByte u f b e => Sys2Proof.Machine.execStatusByte u f b e s
  | .init m => Sys2Proof.Machine.execInit m s
  | .print m => Sys2Proof.Machine.execPrint m s
  | .data m => Sys2Proof.Machine.execData m s
  | .inquiry m => Sys2Proof.Machine.execInquiry m s
  | .unknown b m => Sys2Proof.Machine.execUnknown b m s

end Sys2Proof.Machine
end

