-- ==== Sys2Proof/Machine/Step.lean ====
section
/-!
DEFINITION. One step: the next input of the collaborators, applied to the core. The core has no program counter and fetches no
instructions (10_state.md rule R33, 20_memory.md rule R71); the model's fetch takes the first record of `inputs`
(notes/assumptions/5.md).
-/
namespace Sys2Proof.Machine

/-- One operation of the total order of rule R66. With no input pending the core is idle and its state survives (rule R224). An
instantiation that rule R7 does not admit is refused, and so are bytes that are no input record. -/
def step (s : State) : Host.Outcome State Fault Refusal :=
  if s.params.wf = false then .refused .instantiation
  else
    match s.inputs with
    | [] => .next s
    | tag :: rest =>
      match decode s.params (tag :: rest) with
      | .error e => .refused (.undecodable e)
      | .ok (i, after) => exec i { s with inputs := after }

/-- `s` with the instruction of a word of spec/opcode_table.json as the only input pending. -/
def State.withFetchWord (s : State) (nbits w : Nat) : State :=
  { s with inputs := tableRecord s.params nbits w }

end Sys2Proof.Machine
end

