-- ==== Sys2Proof/Safety.lean ====
section
/-!
DEFINITION. What counts as a sound state and a safe run, and the terms that the claims use.
-/
namespace Sys2Proof.Machine

/-- Every listed offset of a buffer exists (20_memory.md rule R61: "an offset at or above the capacity is never accessed"). -/
def Buffer.InBounds (buf : List Host.Cell) (capacity : Nat) : Prop := ∀ c ∈ buf, c.1 < capacity

/-- What every row of the table keeps, a sub-operation called on its own included. -/
structure State.Wf (s : State) : Prop where
  /-- The buffers are in canonical form. -/
  settingsCanonical : Buffer.wf s.settingsBuffer = true
  imageCanonical : Buffer.wf s.imageBuffer = true
  /-- No byte stands at or above a capacity (rule R73). -/
  settingsBounded : Buffer.InBounds s.settingsBuffer s.params.settingsCapacity
  imageBounded : Buffer.InBounds s.imageBuffer s.params.imageCapacity
  /-- "Between operations `parser_state` is never `PACKET_RECEIVED`" (rule R33). -/
  notResting : s.parserState ≠ .packetReceived
  /-- The violation record agrees with itself (rule R49). -/
  violationRecord : s.violationFlag = true ↔ s.violationCause ≠ .none
  /-- `printer_busy` is "the same as `print_buffer_full`", and both are set exactly while the pretend print is armed
  (rule R44, rule R154, rule R185). -/
  busyIsFull : s.printer.printerBusy = s.printer.printBufferFull
  busyIsArmed : s.printer.printerBusy = s.pretendPrintDeadline.isSome
  /-- "With `VIOLATION_POLICY` = `resync` it is always false", and only a violation sets it (rule R50). -/
  haltedByPolicy : s.halted = true → s.params.violationPolicy = .halt ∧ s.violationFlag = true

/-- The pre-sync conditions of rule R32, and that no packet is in progress then: synchronisation is lost only together with the
parser's progress (rule R186). -/
structure State.PreSync (s : State) : Prop where
  position : s.sync.bitPosition = 7#3
  accumulator : s.sync.rxAccumulator = 0#8
  active : s.sync.txActive = 0#8
  nothingStaged : s.sync.txStagedValid = false
  idle : s.parserState = .command

/-- The parser is collecting payload for a target that exists (rule R145, rule R146, rule R148, rule R159). -/
structure State.Collecting (s : State) (tag : BufferTag) : Prop where
  byCommand : targetOf s.packet.command = some tag
  target : s.packet.payloadTarget = some tag
  nonzero : s.packet.dataLength ≠ 0#16
  incomplete : s.packet.payloadIndex.toNat < s.packet.dataLength.toNat + s.params.payloadExtra.val
  bounded : s.packet.payloadIndex.toNat ≤ s.params.capacity tag

/-- A packet whose length field has been accepted: from `PAYLOAD` to `STATUS` (rule R141). -/
def ParserState.afterLength : ParserState → Bool
  | .payload | .checksumLow | .checksumHigh | .deviceId | .status => true
  | .command | .compression | .lengthLow | .lengthHigh | .packetReceived => false

/-- What the operations of rule R81 keep besides `Wf`: the invariants of rule R32, R24, R38 and R43, and what the parser's states
mean. -/
structure State.Consistent (s : State) : Prop extends State.Wf s where
  /-- rule R32, second sentence -/
  preSync : s.sync.synchronized = false → s.PreSync
  /-- "Bits `bit_position` down to 0 of `rx_accumulator` are 0 at all times" (rule R32). -/
  unreceived : ∀ k ≤ s.sync.bitPosition.toNat, s.sync.rxAccumulator.getLsbD k = false
  /-- "Not written while `synchronized` is true, so it then holds `SYNC_WORD`" (rule R24). -/
  syncWordHeld : s.sync.synchronized = true → s.sync.syncShiftRegister = s.params.syncWord
  /-- The first call does not synchronize (rule R111). -/
  firstCall : s.sync.initialized = false → s.sync.synchronized = false
  /-- A staged byte waits for the next falling edge, which finds `bit_position` = 7 (rule R118, rule R245). -/
  staged : s.sync.txStagedValid = true → s.sync.bitPosition = 7#3 ∧ s.sync.previousClockLevel = true
  /-- rule R145: the high length byte is still 0, unless a violation under the halt policy stopped the core there -/
  lengthLowFirst : s.parserState = .lengthLow → s.packet.dataLength = 0#16
  lengthHighNext : s.parserState = .lengthHigh → s.halted = false → highByte s.packet.dataLength = 0#8
  /-- rule R148 -/
  collecting : s.parserState = .payload → ∃ tag, s.Collecting tag
  /-- "a non-zero `data_length` requires a non-null payload target" (rule R43) -/
  lengthNeedsTarget : s.parserState.afterLength = true → s.packet.dataLength ≠ 0#16 → targetOf s.packet.command ≠ none
  /-- "unsigned, 17 bits, range 0..65536" (rule R38) -/
  indexRange : s.packet.payloadIndex.toNat ≤ 65536

/-- A run of instructions, each applied to the state that the one before it left (rule R66). The event lists of its steps are
joined. -/
def runAll (is : List Instr) (s : State) : Outcome :=
  match is with
  | [] => .next { s with events := [] }
  | i :: rest =>
    andThen (exec i s) fun u =>
      andThen (runAll rest u) fun v => .next { v with events := u.events ++ v.events }

/-- An outcome is safe when the machine goes on. -/
def Safe (o : Outcome) : Prop := ∃ u, o = .next u

/-- The core is between two byte frames, with the clock at 1: the next bit cell is the first of a frame. -/
structure State.AtFrameStart (s : State) : Prop where
  running : s.halted = false
  called : s.sync.initialized = true
  clockHigh : s.sync.previousClockLevel = true
  synchronized : s.sync.synchronized = true
  position : s.sync.bitPosition = 7#3
  accumulator : s.sync.rxAccumulator = 0#8

/-- The core is between two packets: the next frame is a command byte, and no byte waits to be transmitted. -/
structure State.AtPacketStart (s : State) : Prop extends State.AtFrameStart s where
  idle : s.parserState = .command
  nothingStaged : s.sync.txStagedValid = false

/-- The core scans for the sync word, with the clock at 1. -/
structure State.Scanning (s : State) : Prop where
  running : s.halted = false
  called : s.sync.initialized = true
  clockHigh : s.sync.previousClockLevel = true
  scanning : s.sync.synchronized = false

/-- The byte that the streamer transmits in the frame that begins here (rule R116). -/
def State.nextTransmitted (s : State) : Byte := if s.sync.txStagedValid then s.sync.txStaged else 0#8

/-- The `DriveOut` events of one frame that transmits a byte: bit 7 first (rule R121). -/
def driveFrame (b : Byte) : List Event :=
  [.driveOut (b.getLsbD 7), .driveOut (b.getLsbD 6), .driveOut (b.getLsbD 5), .driveOut (b.getLsbD 4),
    .driveOut (b.getLsbD 3), .driveOut (b.getLsbD 2), .driveOut (b.getLsbD 1), .driveOut (b.getLsbD 0)]

/-- The `DriveOut` events of `n` frames in which nothing was staged ("idle transmits zero bits", rule R116). -/
def driveIdle (n : Nat) : List Event := List.replicate (8 * n) (.driveOut false)

/-- The number that a list of levels writes in binary, the first level most significant. -/
def bitsValue (ds : List Level) : Nat := ds.foldl (fun v d => 2 * v + d.toNat) 0

/-- The last 16 levels of a list, zero-extended on the left, the newest in bit 0 (rule R24, rule R122). -/
def lastSixteen (ds : List Level) : Word16 := BitVec.ofNat 16 (bitsValue ds)

/-- The bit cells of a list of levels. -/
def cells (ds : List Level) (t : Instant) : List Instr := ds.map fun d => .bitcell d t

/-- The checksum of a packet (30_encoding.md rule R94): the 16-bit sum of the command, compression, length and payload bytes. -/
def packetSum (cmd : Byte) (m : PacketBody) : Word16 :=
  BitVec.ofNat 16 (cmd.toNat + m.compression.toNat + m.payload.length % 256 + m.payload.length / 256
    + (m.payload.map BitVec.toNat).sum)

/-- SyncState after a packet (rule R183): back in the pre-sync state, or synchronized at the start of the next frame with the
status byte the byte last transmitted; the line holds the status byte's bit 0 (rule R251). -/
def syncAfterPacket (p : Params) (status : Byte) (y : SyncState) : SyncState :=
  if p.resyncAfterPacket then { y.preSync with dataOut := .level (status.getLsbD 0) }
  else { y with txStaged := status, txActive := status, dataOut := .level (status.getLsbD 0) }

/-- What any packet that parses to its end leaves (rule R163): the header, the sums, the acknowledgement and the status byte
recorded and transmitted in the last two frames, `PacketReady`, the deadline pushed, and synchronisation kept or lost by
`RESYNC_AFTER_PACKET` (rule R183). `flags` are the four PrinterStatus flags of the end of the packet. -/
structure PacketEnds (cmd : Byte) (c : Command) (m : PacketBody) (flags : PrinterStatus) (s u : State) : Prop where
  streamer : u.sync = syncAfterPacket s.params (statusOf s.params flags) s.sync
  idle : u.parserState = .command
  command : u.packet.command = c
  compression : u.packet.compressionFlag = m.compression
  length : u.packet.dataLength.toNat = m.payload.length
  computed : u.packet.checksumComputed = packetSum cmd m
  received : u.packet.checksumReceived = m.checksum
  acknowledged : u.packet.deviceAckByte = s.params.deviceId
  status : u.packet.statusByte = statusOf s.params flags
  printer : u.printer = flags
  ready : u.readyFlag = true
  pushed : u.timeoutDeadline = m.instant + s.params.timeoutWindow
  noViolation : u.violationFlag = s.violationFlag ∧ u.violationCause = s.violationCause ∧ u.halted = s.halted
  events : u.events = driveIdle (6 + m.payload.length) ++ driveFrame s.params.deviceId
    ++ driveFrame (statusOf s.params flags) ++ [.packetReady]
  modelFields : u.params = s.params ∧ u.inputs = s.inputs ∧ u.epoch = s.epoch ∧ u.result = none

end Sys2Proof.Machine
end

