-- ==== Sys2Proof/Certificates/Slice0/Obligations.lean ====
section
/-!
DEFINITION. The statements for the provers. Each is about every state, and so about every instantiation: `State.params` is any.
`events` and `result` are the model's record of what an operation yields and returns (rule R11, rule R81).
-/
open Sys2Proof Sys2Proof.Machine

/-! ### Decoding, and one step -/

/-- Decode and encode agree for every well-formed instruction of every admitted instance, whatever bytes follow it. -/
def Obligations.DecodeEncodeAgree : Prop :=
  ∀ (p : Params) (i : Instr) (rest : List Byte), p.wf = true → i.wf p = true →
    decode p (encode p i ++ rest) = .ok (i, rest)

/-- Rule R88: the command decode is equality with the four codes, so that all but four byte values are `UNKNOWN`. -/
def Obligations.CommandDecodeByEquality : Prop :=
  ∀ p : Params, p.wf = true →
    decodeCommand p p.cmdInit = .init ∧ decodeCommand p p.cmdData = .data ∧ decodeCommand p p.cmdPrint = .print
    ∧ decodeCommand p p.cmdInquiry = .inquiry
    ∧ (∀ b : Byte, decodeCommand p b = .unknown
        ↔ b ≠ p.cmdInit ∧ b ≠ p.cmdData ∧ b ≠ p.cmdPrint ∧ b ≠ p.cmdInquiry)
    ∧ ((List.range 256).filter fun n => decide (decodeCommand p (BitVec.ofNat 8 n) = .unknown)).length = 252

/-- A few words written out from rule R84, rule R86, rule R88 and rule R92. The model's choices in them: the usual values
(notes/assumptions/2.md), the record's tag and the instant (notes/assumptions/6.md), and which row a bare word of the table is:
that 0x08 and 0x06 are `STATUS_BYTE`, not the command byte of an `UNKNOWN` packet that rule R88 reads in them
(notes/assumptions/7.md). -/
def Obligations.WordsDecodeAsWritten : Prop :=
  decodeTableWord 16 0x8833 = some (.preamble 0#64)
  ∧ decodeTableWord 8 0x0F = some (.inquiry ⟨0#8, [], 0#16, 0#8, 0#8, 0#64⟩)
  ∧ decodeTableWord 8 0x08 = some (.statusByte true false false false)
  ∧ decodeTableWord 8 0x06 = some (.statusByte false true true false)
  ∧ decode Params.usual
      ([Tag.packet, 0x04#8, 0x00#8, 0x03#8, 0x00#8, 0x11#8, 0x22#8, 0x33#8, 0x6D#8, 0x00#8, 0x00#8, 0x00#8]
        ++ [0xE8#8, 0x03#8, 0#8, 0#8, 0#8, 0#8, 0#8, 0#8])
      = .ok (.data ⟨0x00#8, [0x11#8, 0x22#8, 0x33#8], 0x006D#16, 0x00#8, 0x00#8, 1000#64⟩, [])

/-- When the inputs begin with a record of an instruction, `step` is `exec` of that instruction on the state whose inputs are
the bytes after the record; nothing else is around `exec`. -/
def Obligations.StepRunsDecodedInstruction : Prop :=
  ∀ (s : State) (i : Instr) (after : List Byte), s.params.wf = true → decode s.params s.inputs = .ok (i, after) →
    step s = exec i { s with inputs := after }

/-- Rule R7: an instantiation with two equal command codes or two equal bit positions is refused. -/
def Obligations.CoincidingConstantsRefused : Prop :=
  ∀ s : State,
    ¬ [s.params.cmdInit, s.params.cmdPrint, s.params.cmdData, s.params.cmdInquiry].Nodup
      ∨ ¬ [s.params.bitChecksumError, s.params.bitPrinterBusy, s.params.bitPrintBufferFull,
          s.params.bitUnprocessedData].Nodup →
    step s = .refused .instantiation

/-- The core is idle between operations (rule R224): with no input pending a step leaves the whole state as it is. -/
def Obligations.IdleStepChangesNothing : Prop :=
  ∀ s : State, s.params.wf = true → s.inputs = [] → step s = .next s

/-! ### Reset -/

/-- Rule R240 and rule R241: every element after `RESET`, from any state. `previous_clock_level` is unspecified and not stated;
no buffer byte holds a defined value. The parameters and the inputs are no state of the core. -/
def Obligations.ResetAssignsEveryElement : Prop :=
  ∀ s : State, ∃ u, exec .reset s = .next u
    ∧ u.sync.initialized = false ∧ u.sync.synchronized = false ∧ u.sync.syncShiftRegister = 0x0000#16
    ∧ u.sync.bitPosition = 7#3 ∧ u.sync.rxAccumulator = 0x00#8 ∧ u.sync.txStaged = 0x00#8
    ∧ u.sync.txStagedValid = false ∧ u.sync.txActive = 0x00#8 ∧ u.sync.dataOut = .undriven
    ∧ u.parserState = .command ∧ u.packet.command = .unknown ∧ u.packet.compressionFlag = 0x00#8
    ∧ u.packet.dataLength = 0#16 ∧ u.packet.payloadTarget = none ∧ u.packet.payloadIndex = 0#17
    ∧ u.packet.checksumReceived = 0x0000#16 ∧ u.packet.checksumComputed = 0x0000#16
    ∧ u.packet.deviceAckByte = 0x00#8 ∧ u.packet.statusByte = 0x00#8
    ∧ u.printer = ⟨false, false, false, false⟩ ∧ u.readyFlag = false ∧ u.timeoutDeadline = 0#64
    ∧ u.pretendPrintDeadline = none ∧ u.violationFlag = false ∧ u.violationCause = .none ∧ u.halted = false
    ∧ (∀ tag off, Buffer.read (u.buffer tag) off = none)
    ∧ u.events = [] ∧ u.result = none ∧ u.params = s.params ∧ u.inputs = s.inputs

/-- The machine starts where `RESET` leaves it (rule R241), and there the invariants hold and the instance is admitted. The
parameters and `previous_clock_level` of `State.reset` are the model's choice (notes/assumptions/2.md and 3.md). -/
def Obligations.ResetStateIsConsistent : Prop :=
  State.reset.Consistent ∧ State.reset.params.wf = true
  ∧ exec .reset State.reset = .next { State.reset with epoch := 1 }

/-! ### The streamer -/

/-- Rule R111: the first `EDGE` after `RESET` records the clock level and does nothing else. -/
def Obligations.FirstEdgeOnlyRecords : Prop :=
  ∀ (s : State) (c d : Level) (t : Instant), s.halted = false → s.sync.initialized = false →
    exec (.edge c d t) s = .next { s with
      events := [], result := none, sync := { s.sync with initialized := true, previousClockLevel := c } }

/-- Rule R112: an `EDGE` whose level is the previous one changes nothing, whatever `d` and `t` are. -/
def Obligations.UnchangedLevelIsNoOp : Prop :=
  ∀ (s : State) (c d : Level) (t : Instant), s.sync.initialized = true → c = s.sync.previousClockLevel →
    exec (.edge c d t) s = .next { s with events := [], result := none }

/-- Rule R113: a rising edge while not synchronized shifts the level in, and synchronizes on `SYNC_WORD`. The register is read as
the number it holds. -/
def Obligations.RisingEdgeScansPreamble : Prop :=
  ∀ (s : State) (d : Level) (t : Instant), s.halted = false → s.sync.initialized = true →
    s.sync.previousClockLevel = false → s.sync.synchronized = false →
    let register := BitVec.ofNat 16 (2 * s.sync.syncShiftRegister.toNat + d.toNat)
    exec (.edge true d t) s = .next { s with
      events := [], result := none,
      sync := if register = s.params.syncWord
        then { s.sync with previousClockLevel := true, syncShiftRegister := register, synchronized := true, bitPosition := 7#3 }
        else { s.sync with previousClockLevel := true, syncShiftRegister := register } }

/-- Rule R117: a falling edge while not synchronized writes the clock level only, and drives nothing. -/
def Obligations.FallingEdgeUnsynchronizedIsSilent : Prop :=
  ∀ (s : State) (d : Level) (t : Instant), s.halted = false → s.sync.initialized = true →
    s.sync.previousClockLevel = true → s.sync.synchronized = false →
    exec (.edge false d t) s = .next { s with
      events := [], result := none, sync := { s.sync with previousClockLevel := false } }

/-- Rule R116: a falling edge while synchronized loads `tx_active` at `bit_position` = 7 (the staged byte, or zeros), and drives
bit `bit_position` of it. -/
def Obligations.FallingEdgeTransmits : Prop :=
  ∀ (s : State) (d : Level) (t : Instant), s.halted = false → s.sync.initialized = true →
    s.sync.previousClockLevel = true → s.sync.synchronized = true →
    let active := if s.sync.bitPosition = 7#3 then s.nextTransmitted else s.sync.txActive
    let level := active.getLsbD s.sync.bitPosition.toNat
    exec (.edge false d t) s = .next { s with
      events := [.driveOut level], result := none,
      sync := { s.sync with
        previousClockLevel := false
        txActive := active
        txStagedValid := if s.sync.bitPosition = 7#3 then false else s.sync.txStagedValid
        dataOut := .level level } }

/-- Rule R114: a rising edge while synchronized, before the last bit: a 1 level sets bit `bit_position`, a 0 level writes nothing,
and the position goes down by one. -/
def Obligations.RisingEdgeReceivesBit : Prop :=
  ∀ (s : State) (d : Level) (t : Instant), s.halted = false → s.sync.initialized = true →
    s.sync.previousClockLevel = false → s.sync.synchronized = true → s.sync.bitPosition ≠ 0#3 →
    ∃ (accumulator : Byte) (position : BitVec 3),
      (∀ k, accumulator.getLsbD k = (s.sync.rxAccumulator.getLsbD k || (d && decide (k = s.sync.bitPosition.toNat))))
      ∧ position.toNat + 1 = s.sync.bitPosition.toNat
      ∧ exec (.edge true d t) s = .next { s with
          events := [], result := none,
          sync := { s.sync with
            previousClockLevel := true, rxAccumulator := accumulator, bitPosition := position } }

/-- Rule R115: the rising edge that finds `bit_position` = 0 merges its bit, resets the accumulator and the position, and passes
the byte to `BYTE`: it is that `BYTE`, on the streamer already updated. -/
def Obligations.RisingEdgeCompletesByte : Prop :=
  ∀ (s : State) (d : Level) (t : Instant), s.halted = false → s.sync.initialized = true →
    s.sync.previousClockLevel = false → s.sync.synchronized = true → s.sync.bitPosition = 0#3 →
    ∃ b : Byte, (∀ k, b.getLsbD k = (s.sync.rxAccumulator.getLsbD k || (d && decide (k = 0))))
      ∧ exec (.edge true d t) s = exec (.byte b t) { s with
          sync := { s.sync with previousClockLevel := true, rxAccumulator := 0#8, bitPosition := 7#3 } }

/-- Rule R22: after any `EDGE` of a core that is not halted, `previous_clock_level` is its argument and the first call is over;
a resynchronisation inside the operation does not undo it. -/
def Obligations.EdgeStoresItsLevel : Prop :=
  ∀ (s u : State) (c d : Level) (t : Instant), s.halted = false → exec (.edge c d t) s = .next u →
    u.sync.previousClockLevel = c ∧ u.sync.initialized = true

/-- Rule R118: `STAGE` replaces the staged byte, and nothing else. -/
def Obligations.StageSetsNextByte : Prop :=
  ∀ (s : State) (b : Byte), exec (.stage b) s = .next { s with
    events := [], result := none, sync := { s.sync with txStaged := b, txStagedValid := true } }

/-! ### The parser -/

/-- Rule R140: `PARSE` is the slot of the current state. In `PACKET_RECEIVED`, which the rule calls unreachable, it stops by name
(the model's choice, notes/assumptions/10.md). -/
def Obligations.ParseIsTheSlotOfItsState : Prop :=
  ∀ (s : State) (b : Byte) (t : Instant),
    (s.parserState = .command → exec (.parse b t) s = exec (.slotCommand b) s)
    ∧ (s.parserState = .compression → exec (.parse b t) s = exec (.slotCompression b) s)
    ∧ (s.parserState = .lengthLow → exec (.parse b t) s = exec (.slotLengthLow b) s)
    ∧ (s.parserState = .lengthHigh → exec (.parse b t) s = exec (.slotLengthHigh b) s)
    ∧ (s.parserState = .payload → exec (.parse b t) s = exec (.slotPayload b) s)
    ∧ (s.parserState = .checksumLow → exec (.parse b t) s = exec (.slotChecksumLow b) s)
    ∧ (s.parserState = .checksumHigh → exec (.parse b t) s = exec (.slotChecksumHigh b) s)
    ∧ (s.parserState = .deviceId → exec (.parse b t) s = exec (.slotDeviceId b t) s)
    ∧ (s.parserState = .status → exec (.parse b t) s = exec (.slotStatus b) s)
    ∧ (s.parserState = .packetReceived → exec (.parse b t) s = .fault .restingPacketReceived)

/-- Rule R142: the command byte clears the header and the sum, is decoded, and starts the sum. -/
def Obligations.CommandByteStartsPacket : Prop :=
  ∀ (s : State) (b : Byte), exec (.slotCommand b) s = .next { s with
    events := [], result := some (.parserEvent .none), parserState := .compression,
    packet := { s.packet with
      command := decodeCommand s.params b, compressionFlag := 0#8, dataLength := 0#16,
      checksumComputed := BitVec.ofNat 16 b.toNat } }

/-- Rule R143 and rule R144: the compression byte and the low length byte are stored and summed; `LENGTH_LOW` is entered with
`data_length` cleared. -/
def Obligations.HeaderBytesStoredAndSummed : Prop :=
  ∀ (s : State) (b : Byte),
    exec (.slotCompression b) s = .next { s with
      events := [], result := some (.parserEvent .none), parserState := .lengthLow,
      packet := { s.packet with
        compressionFlag := b, dataLength := 0#16,
        checksumComputed := BitVec.ofNat 16 (s.packet.checksumComputed.toNat + b.toNat) } }
    ∧ ∃ length : Word16, length.toNat = s.packet.dataLength.toNat / 256 * 256 + b.toNat
      ∧ exec (.slotLengthLow b) s = .next { s with
          events := [], result := some (.parserEvent .none), parserState := .lengthHigh,
          packet := { s.packet with
            dataLength := length,
            checksumComputed := BitVec.ofNat 16 (s.packet.checksumComputed.toNat + b.toNat) } }

/-- Rule R145 and rule R146 where no violation arises: a zero length skips `PAYLOAD` and enters `CHECKSUM_LOW`; a non-zero length
with a target enters `PAYLOAD`, which selects the target and clears the index. -/
def Obligations.LengthFieldSelectsNextState : Prop :=
  ∀ (s : State) (b : Byte) (length : Word16), length.toNat = b.toNat * 256 + s.packet.dataLength.toNat % 256 →
    let sum := BitVec.ofNat 16 (s.packet.checksumComputed.toNat + b.toNat)
    (length = 0#16 → exec (.slotLengthHigh b) s = .next { s with
      events := [], result := some (.parserEvent .none), parserState := .checksumLow,
      packet := { s.packet with dataLength := length, checksumComputed := sum, checksumReceived := 0#16 } })
    ∧ (length ≠ 0#16 → s.packet.command = .data → exec (.slotLengthHigh b) s = .next { s with
      events := [], result := some (.parserEvent .none), parserState := .payload,
      packet := { s.packet with
        dataLength := length, checksumComputed := sum, payloadTarget := some .image, payloadIndex := 0#17 } })
    ∧ (length ≠ 0#16 → s.packet.command = .print → exec (.slotLengthHigh b) s = .next { s with
      events := [], result := some (.parserEvent .none), parserState := .payload,
      packet := { s.packet with
        dataLength := length, checksumComputed := sum, payloadTarget := some .settings, payloadIndex := 0#17 } })

/-- Rule R211: a non-zero length for `INIT`, `INQUIRY` or `UNKNOWN` raises `NO_PAYLOAD_TARGET`; with `VIOLATION_POLICY` =
`resync` the whole of rule R214's entry follows: the record, `checksum_error`, the event, the resynchronisation, and the
deadline of `BYTE`; nothing is staged and `ready_flag` keeps its value. -/
def Obligations.LengthWithoutTargetViolates : Prop :=
  ∀ (s : State) (b : Byte) (t : Instant) (length : Word16),
    length.toNat = b.toNat * 256 + s.packet.dataLength.toNat % 256 →
    s.parserState = .lengthHigh → s.params.violationPolicy = .resync → length ≠ 0#16 →
    s.packet.command = .init ∨ s.packet.command = .inquiry ∨ s.packet.command = .unknown →
    exec (.byte b t) s = .next { s with
      events := [.protocolViolation .noPayloadTarget], result := none,
      violationFlag := true, violationCause := .noPayloadTarget, printer := { s.printer with checksumError := true },
      sync := { s.sync with
        synchronized := false, syncShiftRegister := 0#16, bitPosition := 7#3, rxAccumulator := 0#8,
        txStaged := 0#8, txStagedValid := false, txActive := 0#8 },
      parserState := .command, timeoutDeadline := t + s.params.timeoutWindow,
      packet := { s.packet with
        dataLength := length, checksumComputed := BitVec.ofNat 16 (s.packet.checksumComputed.toNat + b.toNat) } }

/-- Rule R148 where the byte fits: it is stored at the index, summed and counted, every other byte of both buffers is unchanged,
and the state is left when the index reaches `data_length + PAYLOAD_EXTRA`. -/
def Obligations.PayloadByteStored : Prop :=
  ∀ (s : State) (b : Byte) (tag : BufferTag), s.packet.payloadTarget = some tag →
    s.packet.payloadIndex.toNat < s.params.capacity tag → s.packet.payloadIndex.toNat < 65536 →
    let off := s.packet.payloadIndex.toNat
    let complete := s.packet.dataLength.toNat + s.params.payloadExtra.val ≤ off + 1
    ∃ u, exec (.slotPayload b) s = .next u
      ∧ u.memRead tag off = b
      ∧ (∀ tag' off', ¬ (tag' = tag ∧ off' = off) → u.memRead tag' off' = s.memRead tag' off')
      ∧ u = { s with
          settingsBuffer := u.settingsBuffer, imageBuffer := u.imageBuffer,
          events := [], result := some (.parserEvent .none),
          parserState := if complete then .checksumLow else s.parserState,
          packet := { s.packet with
            payloadIndex := BitVec.ofNat 17 (off + 1),
            checksumComputed := BitVec.ofNat 16 (s.packet.checksumComputed.toNat + b.toNat),
            checksumReceived := if complete then 0#16 else s.packet.checksumReceived } }

/-- Rule R212 and rule R73: the payload byte that does not fit is neither stored nor summed; it raises `BUFFER_OVERRUN`, with
`VIOLATION_POLICY` = `resync` as rule R214 says. -/
def Obligations.PayloadOverrunViolates : Prop :=
  ∀ (s : State) (b : Byte) (t : Instant) (tag : BufferTag), s.parserState = .payload →
    s.packet.payloadTarget = some tag → s.params.capacity tag ≤ s.packet.payloadIndex.toNat →
    s.params.violationPolicy = .resync →
    exec (.byte b t) s = .next { s with
      events := [.protocolViolation .bufferOverrun], result := none,
      violationFlag := true, violationCause := .bufferOverrun, printer := { s.printer with checksumError := true },
      sync := { s.sync with
        synchronized := false, syncShiftRegister := 0#16, bitPosition := 7#3, rxAccumulator := 0#8,
        txStaged := 0#8, txStagedValid := false, txActive := 0#8 },
      parserState := .command, timeoutDeadline := t + s.params.timeoutWindow }

/-- The payload write without a target stops by name: rule R61 knows no such buffer (the model's choice,
notes/assumptions/10.md). -/
def Obligations.PayloadWithoutTargetStops : Prop :=
  ∀ (s : State) (b : Byte), s.packet.payloadTarget = none → s.packet.payloadIndex.toNat < s.params.imageCapacity →
    exec (.slotPayload b) s = .fault .noSuchBuffer

/-- Rule R150, rule R151 and rule R152: the checksum field is assembled low byte first and not summed; the high byte enters
`DEVICE_ID`, which records and transmits the constant. -/
def Obligations.ChecksumFieldAndAcknowledgement : Prop :=
  ∀ (s : State) (b : Byte), ∃ low high : Word16,
    low.toNat = s.packet.checksumReceived.toNat / 256 * 256 + b.toNat
    ∧ high.toNat = b.toNat * 256 + s.packet.checksumReceived.toNat % 256
    ∧ exec (.slotChecksumLow b) s = .next { s with
        events := [], result := some (.parserEvent .none), parserState := .checksumHigh,
        packet := { s.packet with checksumReceived := low } }
    ∧ exec (.slotChecksumHigh b) s = .next { s with
        events := [], result := some (.parserEvent (.transmitByte s.params.deviceId)), parserState := .deviceId,
        packet := { s.packet with checksumReceived := high, deviceAckByte := s.params.deviceId } }

/-- Rule R153 and rule R154: the byte of the device-ID slot is ignored; entering `STATUS` assigns `checksum_error`, applies the side
effects of `DATA` and `PRINT`, arms the pretend print on `PRINT`, and records and transmits the status byte of the four
flags as just written. -/
def Obligations.StatusEntryUpdatesPrinterStatus : Prop :=
  ∀ (s : State) (b : Byte) (t : Instant),
    let isData := decide (s.packet.command = .data)
    let isPrint := decide (s.packet.command = .print)
    let e := decide (s.packet.checksumComputed ≠ s.packet.checksumReceived)
    let u := isData || (s.printer.unprocessedDataPresent && !isPrint)
    let f := isPrint || s.printer.printBufferFull
    let y := isPrint || s.printer.printerBusy
    exec (.slotDeviceId b t) s = .next { s with
      events := [], result := some (.parserEvent (.transmitByte (encodeStatus s.params e y f u))),
      parserState := .status,
      printer := { checksumError := e, unprocessedDataPresent := u, printBufferFull := f, printerBusy := y },
      pretendPrintDeadline := if isPrint then some (t + s.params.pretendPrintDuration) else s.pretendPrintDeadline,
      packet := { s.packet with statusByte := encodeStatus s.params e y f u } }

/-- Rule R157, at the byte of the status slot, which is ignored: the packet is reported and the parser restarts in the same call,
with no Packet field cleared. -/
def Obligations.StatusSlotRestartsParser : Prop :=
  ∀ (s : State) (b : Byte), exec (.slotStatus b) s = .next { s with
    events := [], result := some (.parserEvent .packetReady), parserState := .command }

/-- Rule R92: each of the four flags is at its bit position, and the four bits that carry no flag are 0. -/
def Obligations.StatusByteBitPerFlag : Prop :=
  ∀ (p : Params) (e b f u : Bool), p.wf = true →
    let v := encodeStatus p e b f u
    v.getLsbD p.bitChecksumError.val = e ∧ v.getLsbD p.bitPrinterBusy.val = b
    ∧ v.getLsbD p.bitPrintBufferFull.val = f ∧ v.getLsbD p.bitUnprocessedData.val = u
    ∧ (∀ k : Fin 8, k ≠ p.bitChecksumError → k ≠ p.bitPrinterBusy → k ≠ p.bitPrintBufferFull →
        k ≠ p.bitUnprocessedData → v.getLsbD k.val = false)

/-- The `STATUS_BYTE` row: it yields the byte that rule R92 assembles from the four flags given. All else about the row is the
model's choice (notes/assumptions/9.md): that it takes the flags as operands, records the byte in `status_byte`, returns
`TransmitByte` and does not write PrinterStatus. -/
def Obligations.StatusByteRowProducesByte : Prop :=
  ∀ (s : State) (u f b e : Bool), exec (.statusByte u f b e) s = .next { s with
    events := [], result := some (.parserEvent (.transmitByte (encodeStatus s.params e b f u))),
    packet := { s.packet with statusByte := encodeStatus s.params e b f u } }

/-- Rule R141: the whole transition relation of `PARSE`, and with it that `PARSE` answers a next state wherever the parser is not at
rest in `PACKET_RECEIVED` and, in `PAYLOAD`, has a target. `violated` says where a violation leaves the register. -/
def Obligations.ParserStateSequence : Prop :=
  ∀ (s : State) (b : Byte) (t : Instant), s.parserState ≠ .packetReceived →
    (s.parserState = .payload → s.packet.payloadTarget ≠ none ∧ s.packet.payloadIndex.toNat < 65536) →
    ∃ u, exec (.parse b t) s = .next u
      ∧ (let violated := if s.params.violationPolicy = .resync then ParserState.command else s.parserState
        match s.parserState with
        | .command => u.parserState = .compression
        | .compression => u.parserState = .lengthLow
        | .lengthLow => u.parserState = .lengthHigh
        | .lengthHigh =>
          if u.packet.dataLength = 0#16 then u.parserState = .checksumLow
          else if s.packet.command = .data ∨ s.packet.command = .print then u.parserState = .payload
          else u.parserState = violated
        | .payload =>
          if payloadCapacity s.params s.packet.payloadTarget ≤ s.packet.payloadIndex.toNat then u.parserState = violated
          else if u.packet.payloadIndex.toNat < s.packet.dataLength.toNat + s.params.payloadExtra.val then
            u.parserState = .payload
          else u.parserState = .checksumLow
        | .checksumLow => u.parserState = .checksumHigh
        | .checksumHigh => u.parserState = .deviceId
        | .deviceId => u.parserState = .status
        | .status => u.parserState = .command
        | .packetReceived => False)

/-! ### The session controller -/

/-- Rule R180 and rule R181, where `PARSE` returns no event, a violation included: `BYTE` is that `PARSE` and then the deadline. In
`COMMAND`, `COMPRESSION`, `LENGTH_LOW` and `CHECKSUM_LOW` there is such a `PARSE`, for every byte. -/
def Obligations.ByteWithoutEventPushesDeadline : Prop :=
  ∀ (s : State) (b : Byte) (t : Instant),
    (∀ u, exec (.parse b t) s = .next u → u.result = some (.parserEvent .none) →
      exec (.byte b t) s = .next { u with result := none, timeoutDeadline := t + s.params.timeoutWindow })
    ∧ (s.parserState = .command ∨ s.parserState = .compression ∨ s.parserState = .lengthLow ∨ s.parserState = .checksumLow →
      ∃ u, exec (.parse b t) s = .next u ∧ u.result = some (.parserEvent .none)
        ∧ exec (.byte b t) s = .next { u with result := none, timeoutDeadline := t + s.params.timeoutWindow })

/-- Rule R181: every completed byte, of any value and in any parser state, pushes the inactivity deadline, a byte that completes a
packet or causes a violation included. -/
def Obligations.EveryBytePushesDeadline : Prop :=
  ∀ (s u : State) (b : Byte) (t : Instant), exec (.byte b t) s = .next u →
    u.timeoutDeadline = t + s.params.timeoutWindow

/-- Rule R180 with the event `TransmitByte`: the byte that completes the checksum field stages the acknowledgement, and the byte
of the device-ID slot stages the status byte. -/
def Obligations.ByteStagesResponse : Prop :=
  ∀ (s : State) (b : Byte) (t : Instant), s.parserState = .checksumHigh ∨ s.parserState = .deviceId →
    ∃ (u : State) (x : Byte), exec (.parse b t) s = .next u ∧ u.result = some (.parserEvent (.transmitByte x))
      ∧ x = (if s.parserState = .checksumHigh then s.params.deviceId else u.packet.statusByte)
      ∧ exec (.byte b t) s = .next { u with
          result := none, timeoutDeadline := t + s.params.timeoutWindow,
          sync := { s.sync with txStaged := x, txStagedValid := true } }

/-- Rule R182 and rule R183: the byte of the status slot sets `ready_flag` and emits `PacketReady`; then the streamer stays
synchronized, or goes to the pre-sync state, as `RESYNC_AFTER_PACKET` says. `parser_state` is `COMMAND` in both cases. -/
def Obligations.LastByteReportsPacket : Prop :=
  ∀ (s : State) (b : Byte) (t : Instant), s.parserState = .status →
    exec (.byte b t) s = .next { s with
      events := [.packetReady], result := none, readyFlag := true, parserState := .command,
      timeoutDeadline := t + s.params.timeoutWindow,
      sync := if s.params.resyncAfterPacket then { s.sync with
          synchronized := false, syncShiftRegister := 0#16, bitPosition := 7#3, rxAccumulator := 0#8,
          txStaged := 0#8, txStagedValid := false, txActive := 0#8 }
        else s.sync }

/-- Rule R184, rule R185 and rule R187: the two checks of `POLL`, both read from the state before it. -/
def Obligations.PollChecksBothDeadlines : Prop :=
  ∀ (s : State) (t : Instant), s.halted = false →
    let printed := ∃ limit, s.pretendPrintDeadline = some limit ∧ limit.toNat ≤ t.toNat
    let stalled := s.parserState ≠ .command ∧ s.timeoutDeadline.toNat < t.toNat
    ∃ u, exec (.poll t) s = .next u
      ∧ (printed → u.printer = { s.printer with printerBusy := false, printBufferFull := false }
          ∧ u.pretendPrintDeadline = none)
      ∧ (¬ printed → u.printer = s.printer ∧ u.pretendPrintDeadline = s.pretendPrintDeadline)
      ∧ (stalled → u.parserState = .command ∧ u.sync = { s.sync with
          synchronized := false, syncShiftRegister := 0#16, bitPosition := 7#3, rxAccumulator := 0#8,
          txStaged := 0#8, txStagedValid := false, txActive := 0#8 })
      ∧ (¬ stalled → u.parserState = s.parserState ∧ u.sync = s.sync)
      ∧ (printed ∧ stalled → u.events = [.printFinished, .timeoutFired])
      ∧ (printed ∧ ¬ stalled → u.events = [.printFinished])
      ∧ (¬ printed ∧ stalled → u.events = [.timeoutFired])
      ∧ (¬ printed ∧ ¬ stalled → u.events = [])
      ∧ u = { s with
          printer := u.printer, pretendPrintDeadline := u.pretendPrintDeadline, parserState := u.parserState,
          sync := u.sync, events := u.events, result := none }

/-- Rule R186 and rule R30: the forced resynchronisation writes the pre-sync assignment and `parser_state`, and nothing else. -/
def Obligations.ResyncWritesPreSyncOnly : Prop :=
  ∀ s : State, exec .sessionResync s = .next { s with
    events := [], result := none, parserState := .command,
    sync := { s.sync with
      synchronized := false, syncShiftRegister := 0#16, bitPosition := 7#3, rxAccumulator := 0#8,
      txStaged := 0#8, txStagedValid := false, txActive := 0#8 } }

/-- Rule R188: `CLEAR_READY` clears the flag and nothing else, unless the core is halted; calling it twice is the same as calling it
once. -/
def Obligations.ClearReadyClearsFlag : Prop :=
  ∀ s : State,
    exec .clearReady s = .next { s with
      events := [], result := none, readyFlag := if s.halted then s.readyFlag else false }
    ∧ runAll [.clearReady, .clearReady] s = runAll [.clearReady] s

/-- Rule R189: `IS_READY` answers `ready_flag`, also while halted, and changes no state. Rule R191: `GET_LAST_COMMAND` answers the
`command` register in the same way. -/
def Obligations.QueriesAnswerAndChangeNothing : Prop :=
  ∀ s : State,
    exec .isReady s = .next { s with events := [], result := some (.ready s.readyFlag) }
    ∧ exec .getLastCommand s = .next { s with events := [], result := some (.command s.packet.command) }

/-- Rule R190: `GET_IMAGE` returns `IMAGE_BUFFER_CAPACITY` bytes, offset 0 first, each the byte written last at its offset, and
changes no state. Of an offset not written since `RESET` it says nothing. -/
def Obligations.ImageQueryReturnsBuffer : Prop :=
  ∀ s : State, ∃ bytes : List Byte,
    exec .getImage s = .next { s with events := [], result := some (.image bytes) }
    ∧ bytes.length = s.params.imageCapacity
    ∧ ∀ off v, off < s.params.imageCapacity → Buffer.read s.imageBuffer off = some v → bytes[off]? = some v

/-- Rule R216, the halt variant: a violation sets `halted` and leaves the streamer and the parser's state as they were, with the
record, `checksum_error` and the event of rule R214, and the byte that raises it still pushes the deadline (rule R180); while
`halted` is set `EDGE`, `POLL` and `CLEAR_READY` change nothing and the queries answer; only `RESET` clears it. That those
three then give an empty event list and no result is the model's choice (notes/assumptions/17.md). -/
def Obligations.HaltedUntilReset : Prop :=
  (∀ (s : State) (b : Byte) (t : Instant) (tag : BufferTag), s.params.violationPolicy = .halt →
    s.parserState = .payload → s.packet.payloadTarget = some tag → s.params.capacity tag ≤ s.packet.payloadIndex.toNat →
    exec (.byte b t) s = .next { s with
      events := [.protocolViolation .bufferOverrun], result := none, violationFlag := true,
      violationCause := .bufferOverrun, printer := { s.printer with checksumError := true }, halted := true,
      timeoutDeadline := t + s.params.timeoutWindow })
  ∧ (∀ (s : State) (b : Byte) (t : Instant) (length : Word16), s.params.violationPolicy = .halt →
    length.toNat = b.toNat * 256 + s.packet.dataLength.toNat % 256 →
    s.parserState = .lengthHigh → length ≠ 0#16 → targetOf s.packet.command = none →
    exec (.byte b t) s = .next { s with
      events := [.protocolViolation .noPayloadTarget], result := none, violationFlag := true,
      violationCause := .noPayloadTarget, printer := { s.printer with checksumError := true }, halted := true,
      timeoutDeadline := t + s.params.timeoutWindow,
      packet := { s.packet with
        dataLength := length, checksumComputed := BitVec.ofNat 16 (s.packet.checksumComputed.toNat + b.toNat) } })
  ∧ (∀ (s : State) (c d : Level) (t : Instant), s.halted = true →
    exec (.edge c d t) s = .next { s with events := [], result := none }
    ∧ exec (.poll t) s = .next { s with events := [], result := none }
    ∧ exec .clearReady s = .next { s with events := [], result := none }
    ∧ exec .isReady s = .next { s with events := [], result := some (.ready s.readyFlag) }
    ∧ exec .getLastCommand s = .next { s with events := [], result := some (.command s.packet.command) }
    ∧ exec .getImage s = .next { s with events := [], result := some (.image s.imageBytes) })
  ∧ (∀ (s u : State) (i : Instr), s.halted = true → exec i s = .next u → u.halted = false → i = .reset)

/-! ### The wire formats -/

/-- Rule R82, rule R83, rule R84 and rule R86: a bit cell is a falling `EDGE` and a rising `EDGE`, and the other formats are bit cells
in the order of the rules. The level given to the falling edge is ignored (`x`). That a format is one step at one instant, with
the events of all its edges joined, is the model's choice (notes/assumptions/11.md). -/
def Obligations.WireFormatsAreTheirEdges : Prop :=
  (∀ (s : State) (d x : Level) (t : Instant),
    exec (.bitcell d t) s = runAll [.edge false x t, .edge true d t] s)
  ∧ (∀ (s : State) (b : Byte) (t : Instant), exec (.frame b t) s = runAll (cells (msbFirst 8 b) t) s)
  ∧ (∀ (s : State) (t : Instant), exec (.preamble t) s = runAll (cells (msbFirst 16 s.params.syncWord) t) s)
  ∧ (∀ (s : State) (m : PacketBody),
    let frames (cmd : Byte) := (packetBytes cmd m).map fun x => Instr.frame x m.instant
    exec (.init m) s = runAll (frames s.params.cmdInit) s
    ∧ exec (.print m) s = runAll (frames s.params.cmdPrint) s
    ∧ exec (.data m) s = runAll (frames s.params.cmdData) s
    ∧ exec (.inquiry m) s = runAll (frames s.params.cmdInquiry) s
    ∧ ∀ b, exec (.unknown b m) s = runAll (frames b) s)

/-- Rule R82: a bit cell while synchronized and not at the last bit drives bit `bit_position` of the transmitted byte and receives
its level at the same position. The row as one step at one instant: the model's choice (notes/assumptions/11.md). -/
def Obligations.BitCellDrivesThenSamples : Prop :=
  ∀ (s : State) (d : Level) (t : Instant), s.halted = false → s.sync.initialized = true →
    s.sync.previousClockLevel = true → s.sync.synchronized = true → s.sync.bitPosition ≠ 0#3 →
    let active := if s.sync.bitPosition = 7#3 then s.nextTransmitted else s.sync.txActive
    let level := active.getLsbD s.sync.bitPosition.toNat
    ∃ (accumulator : Byte) (position : BitVec 3),
      (∀ k, accumulator.getLsbD k = (s.sync.rxAccumulator.getLsbD k || (d && decide (k = s.sync.bitPosition.toNat))))
      ∧ position.toNat + 1 = s.sync.bitPosition.toNat
      ∧ exec (.bitcell d t) s = .next { s with
          events := [.driveOut level], result := none,
          sync := { s.sync with
            rxAccumulator := accumulator, bitPosition := position, txActive := active,
            txStagedValid := if s.sync.bitPosition = 7#3 then false else s.sync.txStagedValid
            dataOut := .level level } }

/-- Rule R83 with the transmit law, rule R121: from the start of a frame, eight bit cells drive the byte staged before the frame
(zeros if none was), bit 7 first, and pass the byte sent, bit 7 first, to `BYTE`; what the frame leaves is what that `BYTE`
leaves.
The row as one step at one instant: the model's choice (notes/assumptions/11.md). -/
def Obligations.FrameExchangesOneByte : Prop :=
  ∀ (s : State) (b : Byte) (t : Instant), s.AtFrameStart → s.Consistent →
    let x := s.nextTransmitted
    ∃ u, exec (.byte b t) { s with
        sync := { s.sync with txActive := x, txStagedValid := false, dataOut := .level (x.getLsbD 0) } } = .next u
      ∧ exec (.frame b t) s = .next { u with events := driveFrame x ++ u.events, result := none }

/-- Rule R122, the synchronisation law: in the pre-sync state, a sequence of sampled levels no position of which completes the sync
word leaves the streamer scanning, with the last sixteen levels in the register; the level that completes it first
synchronizes at its own edge, whatever came before. -/
def Obligations.FirstSyncWordSynchronizes : Prop :=
  ∀ (s : State) (ds : List Level) (t : Instant), s.Scanning → s.sync.syncShiftRegister = 0#16 →
    (∀ k, 1 ≤ k → k ≤ ds.length → lastSixteen (ds.take k) ≠ s.params.syncWord) →
    ∃ v, runAll (cells ds t) s = .next v
      ∧ v.sync = { s.sync with syncShiftRegister := lastSixteen ds }
      ∧ v.events = []
      ∧ ∀ d : Level, lastSixteen (ds ++ [d]) = s.params.syncWord →
          ∃ w, runAll (cells (ds ++ [d]) t) s = .next w
            ∧ w.sync = { s.sync with
                syncShiftRegister := s.params.syncWord, synchronized := true, bitPosition := 7#3 }
            ∧ w.events = []

/-- Rule R84: the preamble, from a scanning streamer whose register together with the first bits of the sync word holds no earlier
match (rule R122), synchronizes with its last bit and does nothing else.
The row as one step at one instant: the model's choice (notes/assumptions/11.md). -/
def Obligations.PreambleSynchronizes : Prop :=
  ∀ (s : State) (t : Instant), s.Scanning →
    (∀ k, 1 ≤ k → k < 16 →
      BitVec.ofNat 16 (s.sync.syncShiftRegister.toNat * 2 ^ k + s.params.syncWord.toNat / 2 ^ (16 - k)) ≠ s.params.syncWord) →
    exec (.preamble t) s = .next { s with
      events := [], result := none,
      sync := { s.sync with syncShiftRegister := s.params.syncWord, synchronized := true, bitPosition := 7#3 } }

/-! ### The commands, end to end -/

/-- Rule R163, rows `INIT`, `INQUIRY` and `UNKNOWN`: a packet of length 0 from the start of a packet. Only `checksum_error` of
PrinterStatus is written, no buffer byte, no timer; the acknowledgement, the status byte and `PacketReady` follow.
The row as one step at one instant: the model's choice (notes/assumptions/11.md). -/
def Obligations.TargetlessPacketsEndToEnd : Prop :=
  ∀ (s : State) (m : PacketBody) (b : Byte), s.AtPacketStart → s.Consistent → s.params.wf = true → m.payload = [] →
    s.params.isCommandCode b = false →
    let flags (cmd : Byte) := { s.printer with checksumError := packetSum cmd m != m.checksum }
    let frame (u : State) := u.settingsBuffer = s.settingsBuffer ∧ u.imageBuffer = s.imageBuffer
      ∧ u.pretendPrintDeadline = s.pretendPrintDeadline ∧ u.packet.payloadTarget = s.packet.payloadTarget
      ∧ u.packet.payloadIndex = s.packet.payloadIndex
    (∃ u, exec (.init m) s = .next u ∧ PacketEnds s.params.cmdInit .init m (flags s.params.cmdInit) s u ∧ frame u)
    ∧ (∃ u, exec (.inquiry m) s = .next u
        ∧ PacketEnds s.params.cmdInquiry .inquiry m (flags s.params.cmdInquiry) s u ∧ frame u)
    ∧ (∃ u, exec (.unknown b m) s = .next u ∧ PacketEnds b .unknown m (flags b) s u ∧ frame u)

/-- Rule R163, row `DATA`, with `PAYLOAD_EXTRA` = 0: a payload of at most `IMAGE_BUFFER_CAPACITY` bytes is stored from offset 0 and
every other byte of both buffers keeps its value; `unprocessed_data_present` is set.
The row as one step at one instant: the model's choice (notes/assumptions/11.md). -/
def Obligations.DataPacketEndToEnd : Prop :=
  ∀ (s : State) (m : PacketBody), s.AtPacketStart → s.Consistent → s.params.wf = true → m.wf = true →
    m.payload.length ≤ s.params.imageCapacity → s.params.payloadExtra = 0 →
    ∃ u, exec (.data m) s = .next u
      ∧ PacketEnds s.params.cmdData .data m
          { s.printer with
            checksumError := packetSum s.params.cmdData m != m.checksum, unprocessedDataPresent := true } s u
      ∧ (∀ off, u.memRead .image off = (m.payload[off]?).getD (s.memRead .image off))
      ∧ u.settingsBuffer = s.settingsBuffer ∧ u.pretendPrintDeadline = s.pretendPrintDeadline
      ∧ (m.payload ≠ [] → u.packet.payloadTarget = some .image ∧ u.packet.payloadIndex.toNat = m.payload.length)
      ∧ (m.payload = [] → u.packet.payloadTarget = s.packet.payloadTarget
          ∧ u.packet.payloadIndex = s.packet.payloadIndex)

/-- Rule R163, row `PRINT`, with `PAYLOAD_EXTRA` = 0: a payload that fits `settings_buffer` is stored from offset 0;
`unprocessed_data_present` is cleared, `print_buffer_full` and `printer_busy` are set, the pretend print is armed.
The row as one step at one instant: the model's choice (notes/assumptions/11.md). -/
def Obligations.PrintPacketEndToEnd : Prop :=
  ∀ (s : State) (m : PacketBody), s.AtPacketStart → s.Consistent → s.params.wf = true → m.wf = true →
    m.payload.length ≤ s.params.settingsCapacity → s.params.payloadExtra = 0 →
    ∃ u, exec (.print m) s = .next u
      ∧ PacketEnds s.params.cmdPrint .print m
          { checksumError := packetSum s.params.cmdPrint m != m.checksum, unprocessedDataPresent := false,
            printBufferFull := true, printerBusy := true } s u
      ∧ (∀ off, u.memRead .settings off = (m.payload[off]?).getD (s.memRead .settings off))
      ∧ u.imageBuffer = s.imageBuffer
      ∧ u.pretendPrintDeadline = some (m.instant + s.params.pretendPrintDuration)
      ∧ (m.payload ≠ [] → u.packet.payloadTarget = some .settings ∧ u.packet.payloadIndex.toNat = m.payload.length)
      ∧ (m.payload = [] → u.packet.payloadTarget = s.packet.payloadTarget
          ∧ u.packet.payloadIndex = s.packet.payloadIndex)

/-! ### Rules about the whole machine -/

/-- What every step keeps, whatever record is pending: the buffers stay canonical and within their capacities, `parser_state` never
rests in `PACKET_RECEIVED`, and the violation record, busy, full and the armed deadline agree. -/
def Obligations.StepKeepsWf : Prop :=
  ∀ s u : State, s.Wf → step s = .next u → u.Wf

/-- What a step keeps when its input is one that a collaborator can cause (rule R81): the invariants of rule R24, R32, R33, R38 and
R43. -/
def Obligations.StepKeepsConsistent : Prop :=
  ∀ s u : State, s.Consistent → (∀ i after, decode s.params s.inputs = .ok (i, after) → i.external = true) →
    step s = .next u → u.Consistent

/-- Rule R220: in a consistent state every operation that a collaborator can cause returns normally, for every argument value, and
leaves a consistent state. -/
def Obligations.OperationsReturnNormally : Prop :=
  ∀ (s : State) (i : Instr), s.Consistent → i.external = true → ∃ u, exec i s = .next u ∧ u.Consistent

/-- Rule R46: `ready_flag` is cleared only by `CLEAR_READY` and by `RESET`. -/
def Obligations.ReadyFlagClearedOnlyByConsumer : Prop :=
  ∀ (s u : State) (i : Instr), s.readyFlag = true → exec i s = .next u → u.readyFlag = false →
    i = .clearReady ∨ i = .reset

/-- Rule R240: `RESET` "is the only operation that clears `initialized`, `violation_flag`, `violation_cause` and `halted`, and the
only one that sets `data_out` to `undriven`". -/
def Obligations.OnlyResetClears : Prop :=
  ∀ (s u : State) (i : Instr), exec i s = .next u → i ≠ .reset →
    (s.sync.initialized = true → u.sync.initialized = true)
    ∧ (s.violationFlag = true → u.violationFlag = true)
    ∧ (s.violationCause ≠ .none → u.violationCause ≠ .none)
    ∧ (s.halted = true → u.halted = true)
    ∧ (s.sync.dataOut ≠ .undriven → u.sync.dataOut ≠ .undriven)

/-- Rule R6: no operation changes the parameters. That none takes an input either is about the tape of inputs, which is the
model's choice and no part of rule R6 (notes/assumptions/5.md). -/
def Obligations.ParametersNeverChange : Prop :=
  ∀ (s u : State) (i : Instr), exec i s = .next u → u.params = s.params ∧ u.inputs = s.inputs

/-- Rule R63 and rule R72: an `EDGE` changes at most one buffer byte, the one that `PAYLOAD` writes: at `payload_index` of the
target, in a rising edge that completes a byte. -/
def Obligations.EdgeWritesOnlyThePayloadByte : Prop :=
  ∀ (s u : State) (c d : Level) (t : Instant) (tag : BufferTag) (off : Nat), exec (.edge c d t) s = .next u →
    u.memRead tag off ≠ s.memRead tag off →
    s.parserState = .payload ∧ s.packet.payloadTarget = some tag ∧ off = s.packet.payloadIndex.toNat
    ∧ off < s.params.capacity tag ∧ c = true ∧ s.sync.synchronized = true ∧ s.sync.bitPosition = 0#3

/-- Rule R72: the rows listed, among them `POLL`, `CLEAR_READY`, `SESSION_RESYNC` and every slot but `PAYLOAD`, write no buffer byte.
Left out are `RESET`, after which no buffer byte is defined, and the rows that can write one in `PAYLOAD`: SLOT_PAYLOAD, `PARSE`,
`BYTE`, `EDGE`, the bit cell, the frame, the preamble and the packets. -/
def Obligations.OtherRowsWriteNoBufferByte : Prop :=
  ∀ (s u : State) (i : Instr) (b : Byte) (t : Instant) (x y z w : Bool),
    i ∈ [.poll t, .clearReady, .isReady, .getImage, .getLastCommand, .stage b, .sessionResync, .slotCommand b,
      .slotCompression b, .slotLengthLow b, .slotLengthHigh b, .slotChecksumLow b, .slotChecksumHigh b, .slotDeviceId b t,
      .slotStatus b, .statusByte x y z w] →
    exec i s = .next u → ∀ tag off, u.memRead tag off = s.memRead tag off

/-- Rule R31 and rule R251: the line keeps its level unless a synchronized falling edge drives it: an `EDGE` that changes
`data_out` is a falling edge while synchronized, and reports the level it drives; no other single operation but `RESET`
writes it. -/
def Obligations.LineDrivenOnlyByFallingEdge : Prop :=
  (∀ (s u : State) (c d : Level) (t : Instant), exec (.edge c d t) s = .next u → u.sync.dataOut ≠ s.sync.dataOut →
    c = false ∧ s.sync.previousClockLevel = true ∧ s.sync.synchronized = true
    ∧ ∃ l, u.sync.dataOut = .level l ∧ u.events = [.driveOut l])
  ∧ (∀ (s u : State) (b : Byte) (t : Instant) (i : Instr),
    i ∈ [.poll t, .clearReady, .isReady, .getImage, .getLastCommand, .byte b t, .parse b t, .stage b, .sessionResync] →
    exec i s = .next u → u.sync.dataOut = s.sync.dataOut)

/-- Rule R45: an `EDGE` writes PrinterStatus only as a parser transition: it completes a byte in `DEVICE_ID` (the entry of `STATUS`),
or it raises a violation, which sets `checksum_error` only. -/
def Obligations.PrinterStatusWrittenByParser : Prop :=
  ∀ (s u : State) (c d : Level) (t : Instant), exec (.edge c d t) s = .next u → u.printer ≠ s.printer →
    c = true ∧ s.sync.synchronized = true ∧ s.sync.bitPosition = 0#3
    ∧ (s.parserState = .deviceId
      ∨ ((s.parserState = .lengthHigh ∨ s.parserState = .payload)
        ∧ u.printer = { s.printer with checksumError := true } ∧ u.violationFlag = true))

/-- Rule R218 (e): an `EDGE` that completes a byte mid-packet and a `POLL` due at the same late instant. If the `EDGE` comes first the
timeout does not fire; if the `POLL` comes first the packet is abandoned and the bit is scanned as a preamble bit. -/
def Obligations.EdgeAndPollOrdersDiffer : Prop :=
  ∀ (s : State) (d : Level) (t : Instant), s.Consistent → s.halted = false → s.sync.initialized = true →
    s.sync.previousClockLevel = false → s.sync.synchronized = true → s.sync.bitPosition = 0#3 →
    s.parserState ≠ .command → s.timeoutDeadline.toNat < t.toNat →
    t.toNat + s.params.timeoutWindow.toNat < 2 ^ 64 →
    (∃ u, runAll [.edge true d t, .poll t] s = .next u ∧ .timeoutFired ∉ u.events
      ∧ u.timeoutDeadline = t + s.params.timeoutWindow)
    ∧ (∃ v, runAll [.poll t, .edge true d t] s = .next v ∧ .timeoutFired ∈ v.events
      ∧ v.timeoutDeadline = s.timeoutDeadline ∧ v.parserState = .command ∧ v.packet = s.packet
      ∧ v.sync.syncShiftRegister = BitVec.ofNat 16 d.toNat
      ∧ (v.sync.synchronized = true ↔ BitVec.ofNat 16 d.toNat = s.params.syncWord))
end

