-- ==== Sys2Proof/Laws/State.lean ====
section
/-!
SUPPORT. One lemma per field per shared update of the state: what it writes, and that it leaves the rest. Then, for the updates
that choose between cases, one lemma per case with the whole state.
-/
namespace Sys2Proof.Machine

variable (s : State)

/-! ### `State.start` -/

@[simp] theorem State.start_sync : s.start.sync = s.sync := rfl
@[simp] theorem State.start_parserState : s.start.parserState = s.parserState := rfl
@[simp] theorem State.start_packet : s.start.packet = s.packet := rfl
@[simp] theorem State.start_printer : s.start.printer = s.printer := rfl
@[simp] theorem State.start_readyFlag : s.start.readyFlag = s.readyFlag := rfl
@[simp] theorem State.start_timeoutDeadline : s.start.timeoutDeadline = s.timeoutDeadline := rfl
@[simp] theorem State.start_pretendPrintDeadline : s.start.pretendPrintDeadline = s.pretendPrintDeadline := rfl
@[simp] theorem State.start_violationFlag : s.start.violationFlag = s.violationFlag := rfl
@[simp] theorem State.start_violationCause : s.start.violationCause = s.violationCause := rfl
@[simp] theorem State.start_halted : s.start.halted = s.halted := rfl
@[simp] theorem State.start_settingsBuffer : s.start.settingsBuffer = s.settingsBuffer := rfl
@[simp] theorem State.start_imageBuffer : s.start.imageBuffer = s.imageBuffer := rfl
@[simp] theorem State.start_params : s.start.params = s.params := rfl
@[simp] theorem State.start_inputs : s.start.inputs = s.inputs := rfl
@[simp] theorem State.start_events : s.start.events = [] := rfl
@[simp] theorem State.start_result : s.start.result = none := rfl
@[simp] theorem State.start_epoch : s.start.epoch = s.epoch := rfl

/-! ### `State.emit` -/

@[simp] theorem State.emit_sync (e : Event) : (s.emit e).sync = s.sync := rfl
@[simp] theorem State.emit_parserState (e : Event) : (s.emit e).parserState = s.parserState := rfl
@[simp] theorem State.emit_packet (e : Event) : (s.emit e).packet = s.packet := rfl
@[simp] theorem State.emit_printer (e : Event) : (s.emit e).printer = s.printer := rfl
@[simp] theorem State.emit_readyFlag (e : Event) : (s.emit e).readyFlag = s.readyFlag := rfl
@[simp] theorem State.emit_timeoutDeadline (e : Event) : (s.emit e).timeoutDeadline = s.timeoutDeadline := rfl
@[simp] theorem State.emit_pretendPrintDeadline (e : Event) : (s.emit e).pretendPrintDeadline = s.pretendPrintDeadline := rfl
@[simp] theorem State.emit_violationFlag (e : Event) : (s.emit e).violationFlag = s.violationFlag := rfl
@[simp] theorem State.emit_violationCause (e : Event) : (s.emit e).violationCause = s.violationCause := rfl
@[simp] theorem State.emit_halted (e : Event) : (s.emit e).halted = s.halted := rfl
@[simp] theorem State.emit_settingsBuffer (e : Event) : (s.emit e).settingsBuffer = s.settingsBuffer := rfl
@[simp] theorem State.emit_imageBuffer (e : Event) : (s.emit e).imageBuffer = s.imageBuffer := rfl
@[simp] theorem State.emit_params (e : Event) : (s.emit e).params = s.params := rfl
@[simp] theorem State.emit_inputs (e : Event) : (s.emit e).inputs = s.inputs := rfl
@[simp] theorem State.emit_events (e : Event) : (s.emit e).events = s.events ++ [e] := rfl
@[simp] theorem State.emit_result (e : Event) : (s.emit e).result = s.result := rfl
@[simp] theorem State.emit_epoch (e : Event) : (s.emit e).epoch = s.epoch := rfl

/-! ### `State.answer` -/

@[simp] theorem State.answer_sync (r : Result) : (s.answer r).sync = s.sync := rfl
@[simp] theorem State.answer_parserState (r : Result) : (s.answer r).parserState = s.parserState := rfl
@[simp] theorem State.answer_packet (r : Result) : (s.answer r).packet = s.packet := rfl
@[simp] theorem State.answer_printer (r : Result) : (s.answer r).printer = s.printer := rfl
@[simp] theorem State.answer_readyFlag (r : Result) : (s.answer r).readyFlag = s.readyFlag := rfl
@[simp] theorem State.answer_timeoutDeadline (r : Result) : (s.answer r).timeoutDeadline = s.timeoutDeadline := rfl
@[simp] theorem State.answer_pretendPrintDeadline (r : Result) : (s.answer r).pretendPrintDeadline = s.pretendPrintDeadline := rfl
@[simp] theorem State.answer_violationFlag (r : Result) : (s.answer r).violationFlag = s.violationFlag := rfl
@[simp] theorem State.answer_violationCause (r : Result) : (s.answer r).violationCause = s.violationCause := rfl
@[simp] theorem State.answer_halted (r : Result) : (s.answer r).halted = s.halted := rfl
@[simp] theorem State.answer_settingsBuffer (r : Result) : (s.answer r).settingsBuffer = s.settingsBuffer := rfl
@[simp] theorem State.answer_imageBuffer (r : Result) : (s.answer r).imageBuffer = s.imageBuffer := rfl
@[simp] theorem State.answer_params (r : Result) : (s.answer r).params = s.params := rfl
@[simp] theorem State.answer_inputs (r : Result) : (s.answer r).inputs = s.inputs := rfl
@[simp] theorem State.answer_events (r : Result) : (s.answer r).events = s.events := rfl
@[simp] theorem State.answer_result (r : Result) : (s.answer r).result = some r := rfl
@[simp] theorem State.answer_epoch (r : Result) : (s.answer r).epoch = s.epoch := rfl

/-! ### `State.stageByte` -/

@[simp] theorem State.stageByte_sync (b : Byte) : (s.stageByte b).sync = { s.sync with txStaged := b, txStagedValid := true } := rfl
@[simp] theorem State.stageByte_parserState (b : Byte) : (s.stageByte b).parserState = s.parserState := rfl
@[simp] theorem State.stageByte_packet (b : Byte) : (s.stageByte b).packet = s.packet := rfl
@[simp] theorem State.stageByte_printer (b : Byte) : (s.stageByte b).printer = s.printer := rfl
@[simp] theorem State.stageByte_readyFlag (b : Byte) : (s.stageByte b).readyFlag = s.readyFlag := rfl
@[simp] theorem State.stageByte_timeoutDeadline (b : Byte) : (s.stageByte b).timeoutDeadline = s.timeoutDeadline := rfl
@[simp] theorem State.stageByte_pretendPrintDeadline (b : Byte) : (s.stageByte b).pretendPrintDeadline = s.pretendPrintDeadline := rfl
@[simp] theorem State.stageByte_violationFlag (b : Byte) : (s.stageByte b).violationFlag = s.violationFlag := rfl
@[simp] theorem State.stageByte_violationCause (b : Byte) : (s.stageByte b).violationCause = s.violationCause := rfl
@[simp] theorem State.stageByte_halted (b : Byte) : (s.stageByte b).halted = s.halted := rfl
@[simp] theorem State.stageByte_settingsBuffer (b : Byte) : (s.stageByte b).settingsBuffer = s.settingsBuffer := rfl
@[simp] theorem State.stageByte_imageBuffer (b : Byte) : (s.stageByte b).imageBuffer = s.imageBuffer := rfl
@[simp] theorem State.stageByte_params (b : Byte) : (s.stageByte b).params = s.params := rfl
@[simp] theorem State.stageByte_inputs (b : Byte) : (s.stageByte b).inputs = s.inputs := rfl
@[simp] theorem State.stageByte_events (b : Byte) : (s.stageByte b).events = s.events := rfl
@[simp] theorem State.stageByte_result (b : Byte) : (s.stageByte b).result = s.result := rfl
@[simp] theorem State.stageByte_epoch (b : Byte) : (s.stageByte b).epoch = s.epoch := rfl

/-! ### `State.resync` -/

@[simp] theorem State.resync_sync : s.resync.sync = s.sync.preSync := rfl
@[simp] theorem State.resync_parserState : s.resync.parserState = .command := rfl
@[simp] theorem State.resync_packet : s.resync.packet = s.packet := rfl
@[simp] theorem State.resync_printer : s.resync.printer = s.printer := rfl
@[simp] theorem State.resync_readyFlag : s.resync.readyFlag = s.readyFlag := rfl
@[simp] theorem State.resync_timeoutDeadline : s.resync.timeoutDeadline = s.timeoutDeadline := rfl
@[simp] theorem State.resync_pretendPrintDeadline : s.resync.pretendPrintDeadline = s.pretendPrintDeadline := rfl
@[simp] theorem State.resync_violationFlag : s.resync.violationFlag = s.violationFlag := rfl
@[simp] theorem State.resync_violationCause : s.resync.violationCause = s.violationCause := rfl
@[simp] theorem State.resync_halted : s.resync.halted = s.halted := rfl
@[simp] theorem State.resync_settingsBuffer : s.resync.settingsBuffer = s.settingsBuffer := rfl
@[simp] theorem State.resync_imageBuffer : s.resync.imageBuffer = s.imageBuffer := rfl
@[simp] theorem State.resync_params : s.resync.params = s.params := rfl
@[simp] theorem State.resync_inputs : s.resync.inputs = s.inputs := rfl
@[simp] theorem State.resync_events : s.resync.events = s.events := rfl
@[simp] theorem State.resync_result : s.resync.result = s.result := rfl
@[simp] theorem State.resync_epoch : s.resync.epoch = s.epoch := rfl

/-! ### `pushDeadline` -/

@[simp] theorem pushDeadline_sync (t : Instant) : (pushDeadline t s).sync = s.sync := rfl
@[simp] theorem pushDeadline_parserState (t : Instant) : (pushDeadline t s).parserState = s.parserState := rfl
@[simp] theorem pushDeadline_packet (t : Instant) : (pushDeadline t s).packet = s.packet := rfl
@[simp] theorem pushDeadline_printer (t : Instant) : (pushDeadline t s).printer = s.printer := rfl
@[simp] theorem pushDeadline_readyFlag (t : Instant) : (pushDeadline t s).readyFlag = s.readyFlag := rfl
@[simp] theorem pushDeadline_timeoutDeadline (t : Instant) : (pushDeadline t s).timeoutDeadline = t + s.params.timeoutWindow := rfl
@[simp] theorem pushDeadline_pretendPrintDeadline (t : Instant) : (pushDeadline t s).pretendPrintDeadline = s.pretendPrintDeadline := rfl
@[simp] theorem pushDeadline_violationFlag (t : Instant) : (pushDeadline t s).violationFlag = s.violationFlag := rfl
@[simp] theorem pushDeadline_violationCause (t : Instant) : (pushDeadline t s).violationCause = s.violationCause := rfl
@[simp] theorem pushDeadline_halted (t : Instant) : (pushDeadline t s).halted = s.halted := rfl
@[simp] theorem pushDeadline_settingsBuffer (t : Instant) : (pushDeadline t s).settingsBuffer = s.settingsBuffer := rfl
@[simp] theorem pushDeadline_imageBuffer (t : Instant) : (pushDeadline t s).imageBuffer = s.imageBuffer := rfl
@[simp] theorem pushDeadline_params (t : Instant) : (pushDeadline t s).params = s.params := rfl
@[simp] theorem pushDeadline_inputs (t : Instant) : (pushDeadline t s).inputs = s.inputs := rfl
@[simp] theorem pushDeadline_events (t : Instant) : (pushDeadline t s).events = s.events := rfl
@[simp] theorem pushDeadline_result (t : Instant) : (pushDeadline t s).result = s.result := rfl
@[simp] theorem pushDeadline_epoch (t : Instant) : (pushDeadline t s).epoch = s.epoch := rfl

/-! ### `transmitBit` -/

@[simp] theorem transmitBit_sync : (transmitBit s).sync = { loadTransmit s.sync with
      dataOut := .level (bitAt (loadTransmit s.sync).txActive s.sync.bitPosition) } := rfl
@[simp] theorem transmitBit_parserState : (transmitBit s).parserState = s.parserState := rfl
@[simp] theorem transmitBit_packet : (transmitBit s).packet = s.packet := rfl
@[simp] theorem transmitBit_printer : (transmitBit s).printer = s.printer := rfl
@[simp] theorem transmitBit_readyFlag : (transmitBit s).readyFlag = s.readyFlag := rfl
@[simp] theorem transmitBit_timeoutDeadline : (transmitBit s).timeoutDeadline = s.timeoutDeadline := rfl
@[simp] theorem transmitBit_pretendPrintDeadline : (transmitBit s).pretendPrintDeadline = s.pretendPrintDeadline := rfl
@[simp] theorem transmitBit_violationFlag : (transmitBit s).violationFlag = s.violationFlag := rfl
@[simp] theorem transmitBit_violationCause : (transmitBit s).violationCause = s.violationCause := rfl
@[simp] theorem transmitBit_halted : (transmitBit s).halted = s.halted := rfl
@[simp] theorem transmitBit_settingsBuffer : (transmitBit s).settingsBuffer = s.settingsBuffer := rfl
@[simp] theorem transmitBit_imageBuffer : (transmitBit s).imageBuffer = s.imageBuffer := rfl
@[simp] theorem transmitBit_params : (transmitBit s).params = s.params := rfl
@[simp] theorem transmitBit_inputs : (transmitBit s).inputs = s.inputs := rfl
@[simp] theorem transmitBit_events : (transmitBit s).events = s.events ++ [.driveOut (bitAt (loadTransmit s.sync).txActive s.sync.bitPosition)] := rfl
@[simp] theorem transmitBit_result : (transmitBit s).result = s.result := rfl
@[simp] theorem transmitBit_epoch : (transmitBit s).epoch = s.epoch := rfl

/-! ### `State.resetAll` -/

@[simp] theorem State.resetAll_sync : s.resetAll.sync = SyncState.reset := rfl
@[simp] theorem State.resetAll_parserState : s.resetAll.parserState = .command := rfl
@[simp] theorem State.resetAll_packet : s.resetAll.packet = Packet.reset := rfl
@[simp] theorem State.resetAll_printer : s.resetAll.printer = PrinterStatus.reset := rfl
@[simp] theorem State.resetAll_readyFlag : s.resetAll.readyFlag = false := rfl
@[simp] theorem State.resetAll_timeoutDeadline : s.resetAll.timeoutDeadline = 0#64 := rfl
@[simp] theorem State.resetAll_pretendPrintDeadline : s.resetAll.pretendPrintDeadline = none := rfl
@[simp] theorem State.resetAll_violationFlag : s.resetAll.violationFlag = false := rfl
@[simp] theorem State.resetAll_violationCause : s.resetAll.violationCause = .none := rfl
@[simp] theorem State.resetAll_halted : s.resetAll.halted = false := rfl
@[simp] theorem State.resetAll_settingsBuffer : s.resetAll.settingsBuffer = [] := rfl
@[simp] theorem State.resetAll_imageBuffer : s.resetAll.imageBuffer = [] := rfl
@[simp] theorem State.resetAll_params : s.resetAll.params = s.params := rfl
@[simp] theorem State.resetAll_inputs : s.resetAll.inputs = s.inputs := rfl
@[simp] theorem State.resetAll_events : s.resetAll.events = [] := rfl
@[simp] theorem State.resetAll_result : s.resetAll.result = none := rfl
@[simp] theorem State.resetAll_epoch : s.resetAll.epoch = s.epoch + 1 := rfl

/-! ### `State.memWrite` -/

@[simp] theorem State.memWrite_sync (tag : BufferTag) (off : Nat) (v : Byte) :
    (s.memWrite tag off v).sync = s.sync := by cases tag <;> rfl
@[simp] theorem State.memWrite_parserState (tag : BufferTag) (off : Nat) (v : Byte) :
    (s.memWrite tag off v).parserState = s.parserState := by cases tag <;> rfl
@[simp] theorem State.memWrite_packet (tag : BufferTag) (off : Nat) (v : Byte) :
    (s.memWrite tag off v).packet = s.packet := by cases tag <;> rfl
@[simp] theorem State.memWrite_printer (tag : BufferTag) (off : Nat) (v : Byte) :
    (s.memWrite tag off v).printer = s.printer := by cases tag <;> rfl
@[simp] theorem State.memWrite_readyFlag (tag : BufferTag) (off : Nat) (v : Byte) :
    (s.memWrite tag off v).readyFlag = s.readyFlag := by cases tag <;> rfl
@[simp] theorem State.memWrite_timeoutDeadline (tag : BufferTag) (off : Nat) (v : Byte) :
    (s.memWrite tag off v).timeoutDeadline = s.timeoutDeadline := by cases tag <;> rfl
@[simp] theorem State.memWrite_pretendPrintDeadline (tag : BufferTag) (off : Nat) (v : Byte) :
    (s.memWrite tag off v).pretendPrintDeadline = s.pretendPrintDeadline := by cases tag <;> rfl
@[simp] theorem State.memWrite_violationFlag (tag : BufferTag) (off : Nat) (v : Byte) :
    (s.memWrite tag off v).violationFlag = s.violationFlag := by cases tag <;> rfl
@[simp] theorem State.memWrite_violationCause (tag : BufferTag) (off : Nat) (v : Byte) :
    (s.memWrite tag off v).violationCause = s.violationCause := by cases tag <;> rfl
@[simp] theorem State.memWrite_halted (tag : BufferTag) (off : Nat) (v : Byte) :
    (s.memWrite tag off v).halted = s.halted := by cases tag <;> rfl
@[simp] theorem State.memWrite_params (tag : BufferTag) (off : Nat) (v : Byte) :
    (s.memWrite tag off v).params = s.params := by cases tag <;> rfl
@[simp] theorem State.memWrite_inputs (tag : BufferTag) (off : Nat) (v : Byte) :
    (s.memWrite tag off v).inputs = s.inputs := by cases tag <;> rfl
@[simp] theorem State.memWrite_events (tag : BufferTag) (off : Nat) (v : Byte) :
    (s.memWrite tag off v).events = s.events := by cases tag <;> rfl
@[simp] theorem State.memWrite_result (tag : BufferTag) (off : Nat) (v : Byte) :
    (s.memWrite tag off v).result = s.result := by cases tag <;> rfl
@[simp] theorem State.memWrite_epoch (tag : BufferTag) (off : Nat) (v : Byte) :
    (s.memWrite tag off v).epoch = s.epoch := by cases tag <;> rfl

/-- A write changes the buffer of its tag only. -/
theorem State.memWrite_buffer (tag tag' : BufferTag) (off : Nat) (v : Byte) :
    (s.memWrite tag off v).buffer tag' =
      if tag' = tag then Buffer.write (s.buffer tag) off v else s.buffer tag' := by
  cases tag <;> cases tag' <;> rfl

/-! ### `SyncState.preSync` (rule R30) and `loadTransmit` (rule R116) -/

@[simp] theorem SyncState.preSync_initialized (y : SyncState) : y.preSync.initialized = y.initialized := rfl
@[simp] theorem SyncState.preSync_previousClockLevel (y : SyncState) : y.preSync.previousClockLevel = y.previousClockLevel := rfl
@[simp] theorem SyncState.preSync_synchronized (y : SyncState) : y.preSync.synchronized = false := rfl
@[simp] theorem SyncState.preSync_syncShiftRegister (y : SyncState) : y.preSync.syncShiftRegister = 0#16 := rfl
@[simp] theorem SyncState.preSync_bitPosition (y : SyncState) : y.preSync.bitPosition = 7#3 := rfl
@[simp] theorem SyncState.preSync_rxAccumulator (y : SyncState) : y.preSync.rxAccumulator = 0#8 := rfl
@[simp] theorem SyncState.preSync_txStaged (y : SyncState) : y.preSync.txStaged = 0#8 := rfl
@[simp] theorem SyncState.preSync_txStagedValid (y : SyncState) : y.preSync.txStagedValid = false := rfl
@[simp] theorem SyncState.preSync_txActive (y : SyncState) : y.preSync.txActive = 0#8 := rfl
@[simp] theorem SyncState.preSync_dataOut (y : SyncState) : y.preSync.dataOut = y.dataOut := rfl

@[simp] theorem loadTransmit_initialized (y : SyncState) : (loadTransmit y).initialized = y.initialized := rfl
@[simp] theorem loadTransmit_previousClockLevel (y : SyncState) : (loadTransmit y).previousClockLevel = y.previousClockLevel := rfl
@[simp] theorem loadTransmit_synchronized (y : SyncState) : (loadTransmit y).synchronized = y.synchronized := rfl
@[simp] theorem loadTransmit_syncShiftRegister (y : SyncState) : (loadTransmit y).syncShiftRegister = y.syncShiftRegister := rfl
@[simp] theorem loadTransmit_bitPosition (y : SyncState) : (loadTransmit y).bitPosition = y.bitPosition := rfl
@[simp] theorem loadTransmit_rxAccumulator (y : SyncState) : (loadTransmit y).rxAccumulator = y.rxAccumulator := rfl
@[simp] theorem loadTransmit_txStaged (y : SyncState) : (loadTransmit y).txStaged = y.txStaged := rfl
@[simp] theorem loadTransmit_dataOut (y : SyncState) : (loadTransmit y).dataOut = y.dataOut := rfl

/-- The byte that a falling edge finds in `tx_active` (rule R116). -/
theorem loadTransmit_txActive (y : SyncState) :
    (loadTransmit y).txActive =
      if y.bitPosition = 7#3 then (if y.txStagedValid then y.txStaged else 0#8) else y.txActive := rfl

/-- After a load nothing is staged (rule R116). -/
theorem loadTransmit_txStagedValid (y : SyncState) :
    (loadTransmit y).txStagedValid = (if y.bitPosition = 7#3 then false else y.txStagedValid) := rfl

/-! ### The violation, by policy (rule R214, rule R216) -/

/-- A violation with `VIOLATION_POLICY` = `resync`. -/
theorem State.raiseViolation_resync (cause : ViolationCause) (h : s.params.violationPolicy = .resync) :
    s.raiseViolation cause = { s with
      violationFlag := true, violationCause := cause, printer := { s.printer with checksumError := true },
      events := s.events ++ [.protocolViolation cause], sync := s.sync.preSync, parserState := .command } := by
  simp only [State.raiseViolation, h]; rfl

/-- A violation with `VIOLATION_POLICY` = `halt`. -/
theorem State.raiseViolation_halt (cause : ViolationCause) (h : s.params.violationPolicy = .halt) :
    s.raiseViolation cause = { s with
      violationFlag := true, violationCause := cause, printer := { s.printer with checksumError := true },
      events := s.events ++ [.protocolViolation cause], halted := true } := by
  simp only [State.raiseViolation, h]; rfl

/-- The end of a packet with `RESYNC_AFTER_PACKET` = true (rule R183). -/
theorem packetReady_resync (h : s.params.resyncAfterPacket = true) :
    packetReady s = { s with
      readyFlag := true, events := s.events ++ [.packetReady], sync := s.sync.preSync, parserState := .command } := by
  simp [packetReady, State.emit, State.resync, h]

/-- The end of a packet with `RESYNC_AFTER_PACKET` = false (rule R183). -/
theorem packetReady_stay (h : s.params.resyncAfterPacket = false) :
    packetReady s = { s with readyFlag := true, events := s.events ++ [.packetReady] } := by
  simp [packetReady, State.emit, h]

end Sys2Proof.Machine
end

