-- ==== Sys2Proof/Laws/Buffer.lean ====
section
/-!
SUPPORT. The laws of the buffers: read after write, the canonical form, the bounds.
-/
namespace Sys2Proof.Machine

/-- A read after a write at the same offset gives the byte written. -/
@[simp] theorem Buffer.read_write_same (buf : List Host.Cell) (off : Nat) (v : Byte) :
    Buffer.read (Buffer.write buf off v) off = some v := by
  induction buf with
  | nil => simp [Buffer.write, Buffer.read]
  | cons c rest ih =>
    obtain ⟨a, w⟩ := c
    unfold Buffer.write
    split
    · simp [Buffer.read]
    · split
      · simp [Buffer.read]
      · simp only [Buffer.read, if_neg (fun h : a = off => ‹¬ off = a› h.symm), ih]

/-- A write leaves every other offset alone. -/
theorem Buffer.read_write_other (buf : List Host.Cell) (off other : Nat) (v : Byte) (h : other ≠ off) :
    Buffer.read (Buffer.write buf off v) other = Buffer.read buf other := by
  induction buf with
  | nil => simp [Buffer.write, Buffer.read, h.symm]
  | cons c rest ih =>
    obtain ⟨a, w⟩ := c
    unfold Buffer.write
    split
    · simp [Buffer.read, h.symm]
    · split
      · subst_vars; simp [Buffer.read, h.symm]
      · simp only [Buffer.read, ih]

/-- The canonical form says that the offsets rise strictly. -/
theorem Buffer.wf_iff_pairwise (buf : List Host.Cell) :
    Buffer.wf buf = true ↔ buf.Pairwise (fun c d => c.1 < d.1) := by
  induction buf with
  | nil => simp [Buffer.wf]
  | cons c rest ih =>
    cases rest with
    | nil => simp [Buffer.wf]
    | cons d rest =>
      obtain ⟨a, v⟩ := c
      obtain ⟨b, w⟩ := d
      simp only [Buffer.wf, Bool.and_eq_true, decide_eq_true_eq, ih, List.pairwise_cons, List.mem_cons]
      constructor
      · rintro ⟨hab, hb, hrest⟩
        refine ⟨?_, hb, hrest⟩
        rintro x (rfl | hx)
        · exact hab
        · exact lt_trans hab (hb x hx)
      · rintro ⟨ha, hb, hrest⟩
        exact ⟨ha (b, w) (.inl rfl), hb, hrest⟩

/-- The offsets of a write are the offset written and the old ones. -/
theorem Buffer.mem_write {buf : List Host.Cell} {off : Nat} {v : Byte} {c : Host.Cell}
    (h : c ∈ Buffer.write buf off v) : c = (off, v) ∨ c ∈ buf := by
  induction buf with
  | nil => simpa [Buffer.write] using h
  | cons d rest ih =>
    obtain ⟨a, w⟩ := d
    unfold Buffer.write at h
    split at h
    · simpa using h
    · split at h
      · rcases List.mem_cons.1 h with rfl | h
        · exact .inl rfl
        · exact .inr (List.mem_cons_of_mem _ h)
      · rcases List.mem_cons.1 h with rfl | h
        · exact .inr List.mem_cons_self
        · exact (ih h).imp id (List.mem_cons_of_mem _)

/-- A write keeps the canonical form. -/
theorem Buffer.wf_write (buf : List Host.Cell) (off : Nat) (v : Byte) (h : Buffer.wf buf = true) :
    Buffer.wf (Buffer.write buf off v) = true := by
  rw [Buffer.wf_iff_pairwise] at *
  induction buf with
  | nil => simp [Buffer.write]
  | cons c rest ih =>
    obtain ⟨a, w⟩ := c
    obtain ⟨ha, hrest⟩ := List.pairwise_cons.1 h
    unfold Buffer.write
    split
    · rename_i hlt
      refine List.pairwise_cons.2 ⟨?_, h⟩
      rintro d hd
      rcases List.mem_cons.1 hd with rfl | hd
      · exact hlt
      · exact lt_trans hlt (ha d hd)
    · split
      · subst_vars; exact List.pairwise_cons.2 ⟨ha, hrest⟩
      · refine List.pairwise_cons.2 ⟨?_, ih hrest⟩
        intro d hd
        rcases Buffer.mem_write hd with rfl | hd
        · show a < off; omega
        · exact ha d hd

/-- A write below the capacity keeps every offset below it. -/
theorem Buffer.inBounds_write {buf : List Host.Cell} {capacity off : Nat} (v : Byte) (h : Buffer.InBounds buf capacity)
    (hoff : off < capacity) : Buffer.InBounds (Buffer.write buf off v) capacity := by
  intro c hc
  rcases Buffer.mem_write hc with rfl | hc
  · exact hoff
  · exact h c hc

/-- `MemRead` after `MemWrite` at the same place. -/
@[simp] theorem State.memRead_memWrite_same (s : State) (tag : BufferTag) (off : Nat) (v : Byte) :
    (s.memWrite tag off v).memRead tag off = v := by
  simp [State.memRead, State.memWrite_buffer]

/-- `MemRead` after `MemWrite` at another place. -/
theorem State.memRead_memWrite_other (s : State) (tag tag' : BufferTag) (off off' : Nat) (v : Byte)
    (h : ¬ (tag' = tag ∧ off' = off)) :
    (s.memWrite tag off v).memRead tag' off' = s.memRead tag' off' := by
  simp only [State.memRead, State.memWrite_buffer, State.memWrite_epoch]
  by_cases ht : tag' = tag
  · subst ht
    rw [if_pos rfl, Buffer.read_write_other _ _ _ _ (fun ho => h ⟨rfl, ho⟩)]
  · rw [if_neg ht]

/-- Two states with the same buffers and the same count of resets read alike. -/
theorem State.memRead_congr {s u : State} (hs : u.settingsBuffer = s.settingsBuffer)
    (hi : u.imageBuffer = s.imageBuffer) (he : u.epoch = s.epoch) (tag : BufferTag) (off : Nat) :
    u.memRead tag off = s.memRead tag off := by
  cases tag <;> simp [State.memRead, State.buffer, hs, hi, he]

end Sys2Proof.Machine
end

