-- ==== Sys2Proof/Laws/Operands.lean ====
section
/-!
SUPPORT. The operand forms and the sums as numbers.
-/
namespace Sys2Proof.Machine

/-- The sync register after a level enters: doubled, the level added, modulo 2^16 (rule R113). -/
theorem shiftIn_eq_ofNat (r : Word16) (d : Level) : shiftIn r d = BitVec.ofNat 16 (2 * r.toNat + d.toNat) := by
  apply BitVec.eq_of_getLsbD_eq
  intro i hi
  rw [BitVec.getLsbD_ofNat, shiftIn, BitVec.getLsbD_or, BitVec.getLsbD_shiftLeft, BitVec.getLsbD_setWidth]
  cases i with
  | zero => cases d <;> simp [Nat.testBit_zero, Nat.add_mod]
  | succ n =>
    have hdiv : (2 * r.toNat + d.toNat) / 2 = r.toNat := by have := Bool.toNat_le d; omega
    rw [Nat.testBit_succ, hdiv]
    cases d
    · simp [hi, BitVec.getLsbD]
    · simp [hi, BitVec.getLsbD, Nat.testBit_succ]

/-- A sum is the sum of the numbers, modulo 2^16 (rule R158). -/
theorem addToChecksum_eq_ofNat (a : Word16) (b : Byte) : addToChecksum a b = BitVec.ofNat 16 (a.toNat + b.toNat) := by
  apply BitVec.eq_of_toNat_eq
  have := b.isLt
  simp [addToChecksum, BitVec.toNat_add]

/-- `{hi, lo}` as a number (rule R85). -/
theorem assemble16_toNat (lo hi : Byte) : (assemble16 lo hi).toNat = hi.toNat * 256 + lo.toNat := by
  have h : lo.toNat < 2 ^ 8 := lo.isLt
  rw [assemble16, BitVec.toNat_append, ← Nat.shiftLeft_add_eq_or_of_lt h, Nat.shiftLeft_eq]

theorem lowByte_toNat (w : Word16) : (lowByte w).toNat = w.toNat % 256 := by
  simp [lowByte, BitVec.extractLsb'_toNat]

theorem highByte_toNat (w : Word16) : (highByte w).toNat = w.toNat / 256 := by
  have := w.isLt
  simp only [highByte, BitVec.extractLsb'_toNat, Nat.shiftRight_eq_div_pow]
  omega

/-- The two bytes of a field assemble to the field (rule R85). -/
@[simp] theorem assemble16_lowByte_highByte (w : Word16) : assemble16 (lowByte w) (highByte w) = w := by
  apply BitVec.eq_of_toNat_eq
  rw [assemble16_toNat, lowByte_toNat, highByte_toNat]
  omega

theorem withLowByte_toNat (w : Word16) (b : Byte) : (withLowByte w b).toNat = w.toNat / 256 * 256 + b.toNat := by
  rw [withLowByte, assemble16_toNat, highByte_toNat]

theorem withHighByte_toNat (w : Word16) (b : Byte) : (withHighByte w b).toNat = b.toNat * 256 + w.toNat % 256 := by
  rw [withHighByte, assemble16_toNat, lowByte_toNat]

end Sys2Proof.Machine
end

