-- ==== Sys2Proof/Laws/Decode.lean ====
section
/-!
SUPPORT. What each part of the record reader gives on what the encoder writes, and the bits of the status byte.
-/
namespace Sys2Proof

theorem takeByte_cons (b : Byte) (r : List Byte) : takeByte (b :: r) = .ok (b, r) := rfl

theorem takeLevel_encodeLevel (l : Level) (r : List Byte) : takeLevel (encodeLevel l ++ r) = .ok (l, r) := by
  cases l <;> rfl

theorem takeWord16_encodeWord16 (w : Word16) (r : List Byte) : takeWord16 (encodeWord16 w ++ r) = .ok (w, r) := by
  show Except.ok (assemble16 (lowByte w) (highByte w), r) = _
  rw [Machine.assemble16_lowByte_highByte]

theorem takeInstant_encodeInstant (t : Instant) (r : List Byte) :
    takeInstant (encodeInstant t ++ r) = .ok (t, r) := by
  refine congrArg (fun x => Except.ok (x, r)) (BitVec.eq_of_getLsbD_eq fun i hi => ?_)
  simp only [BitVec.getLsbD_append, BitVec.getLsbD_extractLsb']
  split_ifs
  all_goals
    rw [show decide (_ < 8) = true from decide_eq_true (by omega), Bool.true_and]
    congr 1
    omega

theorem takeBytes_append (bs r : List Byte) : takeBytes bs.length (bs ++ r) = .ok (bs, r) := by
  simp [takeBytes]

/-- A flag shifted to its position is that flag there, and 0 elsewhere (rule R92). -/
theorem flagAt_getLsbD (g : Bool) (i k : Fin 8) : (flagAt g i).getLsbD k.val = (g && decide (k = i)) := by
  revert g i k
  decide

/-- The status byte carries no bit outside the four positions (rule R92). -/
theorem encodeStatus_reserved (p : Params) (e b f u : Bool) : encodeStatus p e b f u &&& ~~~ statusMask p = 0#8 := by
  apply BitVec.eq_of_getLsbD_eq
  intro i hi
  have key := fun g j => flagAt_getLsbD g j ⟨i, hi⟩
  simp only [statusMask, encodeStatus, BitVec.getLsbD_and, BitVec.getLsbD_or, BitVec.getLsbD_not, key]
  simp only [hi, decide_true, Bool.true_and, BitVec.getLsbD_zero]
  generalize decide (_ = p.bitChecksumError) = a1
  generalize decide (_ = p.bitPrinterBusy) = a2
  generalize decide (_ = p.bitPrintBufferFull) = a3
  generalize decide (_ = p.bitUnprocessedData) = a4
  revert e b f u a1 a2 a3 a4
  decide

end Sys2Proof
end

