-- ==== Sys2Proof/Laws/Events.lean ====
section
/-!
SUPPORT. Sequencing of outcomes, and that an operation only appends to the event list: run on a state whose list has a prefix, it
does the same and keeps the prefix.
-/
namespace Sys2Proof.Machine

@[simp] theorem andThen_next {α β : Type} (a : α) (f : α → Host.Outcome β Fault Refusal) :
    andThen (.next a) f = f a := rfl
@[simp] theorem andThen_fault {α β : Type} (r : Fault) (f : α → Host.Outcome β Fault Refusal) :
    andThen (.fault r) f = .fault r := rfl
@[simp] theorem andThen_refused {α β : Type} (r : Refusal) (f : α → Host.Outcome β Fault Refusal) :
    andThen (.refused r) f = .refused r := rfl

/-- If a sequence answers a next state, its first part did. -/
theorem andThen_eq_next {α β : Type} {o : Host.Outcome α Fault Refusal} {f : α → Host.Outcome β Fault Refusal} {b : β}
    (h : andThen o f = .next b) : ∃ a, o = .next a ∧ f a = .next b := by
  cases o with
  | next a => exact ⟨a, rfl, h⟩
  | fault r => cases h
  | refused r => cases h

theorem andThen_assoc {α β γ : Type} (o : Host.Outcome α Fault Refusal) (f : α → Host.Outcome β Fault Refusal)
    (g : β → Host.Outcome γ Fault Refusal) :
    andThen (andThen o f) g = andThen o fun a => andThen (f a) g := by
  cases o <;> rfl

/-- The state with a prefix of its event list. -/
def State.prepend (es : List Event) (s : State) : State := { s with events := es ++ s.events }

/-- Apply a function to the next state of an outcome. -/
def mapNext {α β : Type} (f : α → β) (o : Host.Outcome α Fault Refusal) : Host.Outcome β Fault Refusal :=
  andThen o fun a => .next (f a)

/-- A prefix of the event list beside the event of `PARSE`. -/
def prependParsed (es : List Event) (r : State × ParserEvent) : State × ParserEvent := (r.1.prepend es, r.2)

@[simp] theorem mapNext_next {α β : Type} (f : α → β) (a : α) : mapNext f (.next a) = .next (f a) := rfl
@[simp] theorem mapNext_fault {α β : Type} (f : α → β) (r : Fault) : mapNext f (.fault r) = .fault r := rfl
@[simp] theorem mapNext_refused {α β : Type} (f : α → β) (r : Refusal) : mapNext f (.refused r) = .refused r := rfl

theorem andThen_mapNext {α β γ : Type} (f : α → β) (o : Host.Outcome α Fault Refusal)
    (g : β → Host.Outcome γ Fault Refusal) : andThen (mapNext f o) g = andThen o fun a => g (f a) := by
  cases o <;> rfl

theorem mapNext_andThen {α β γ : Type} (f : β → γ) (o : Host.Outcome α Fault Refusal)
    (g : α → Host.Outcome β Fault Refusal) : mapNext f (andThen o g) = andThen o fun a => mapNext f (g a) := by
  cases o <;> rfl

theorem mapNext_mapNext {α β γ : Type} (f : β → γ) (g : α → β) (o : Host.Outcome α Fault Refusal) :
    mapNext f (mapNext g o) = mapNext (fun a => f (g a)) o := by
  cases o <;> rfl

variable (es : List Event) (s : State)

theorem prepend_emit (e : Event) : (s.prepend es).emit e = (s.emit e).prepend es := by
  simp [State.prepend, State.emit]

theorem prepend_raiseViolation (cause : ViolationCause) :
    (s.prepend es).raiseViolation cause = (s.raiseViolation cause).prepend es := by
  cases h : s.params.violationPolicy <;>
    simp [State.raiseViolation, h, State.recordViolation, State.prepend, State.resync]

theorem prepend_applyLengthPolicy : applyLengthPolicy (s.prepend es) = (applyLengthPolicy s).prepend es := by
  have hp : (s.prepend es).packet = s.packet := rfl
  unfold applyLengthPolicy
  rw [hp]
  split
  · rfl
  · split
    · exact prepend_raiseViolation es s _
    · rfl

theorem prepend_consumeLengthHigh (b : Byte) :
    consumeLengthHigh b (s.prepend es) = prependParsed es (consumeLengthHigh b s) :=
  congrArg (·, ParserEvent.none) (prepend_applyLengthPolicy es (storeLengthHigh b s))

theorem prepend_storePayload (tag : BufferTag) (b : Byte) :
    storePayload tag b (s.prepend es) = (storePayload tag b s).prepend es := by
  cases tag <;> rfl

theorem prepend_leavePayload : leavePayload (s.prepend es) = (leavePayload s).prepend es := by
  have hp : (s.prepend es).packet = s.packet := rfl
  have hq : (s.prepend es).params = s.params := rfl
  unfold leavePayload
  rw [hp, hq]
  split <;> rfl

theorem prepend_consumePayload (b : Byte) :
    consumePayload b (s.prepend es) = mapNext (prependParsed es) (consumePayload b s) := by
  have hp : (s.prepend es).packet = s.packet := rfl
  have hq : (s.prepend es).params = s.params := rfl
  unfold consumePayload
  rw [hp, hq]
  split
  · simp only [mapNext_next, prependParsed, prepend_raiseViolation]
  · split
    · rfl
    · simp only [mapNext_next, prependParsed, prepend_storePayload, prepend_leavePayload]

theorem prepend_parse (b : Byte) (t : Instant) :
    parse b t (s.prepend es) = mapNext (prependParsed es) (parse b t s) := by
  have hp : (s.prepend es).parserState = s.parserState := rfl
  unfold parse
  rw [hp]
  cases s.parserState with
  | lengthHigh => exact congrArg Host.Outcome.next (prepend_consumeLengthHigh es s b)
  | payload => exact prepend_consumePayload es s b
  | _ => rfl

theorem prepend_packetReady : packetReady (s.prepend es) = (packetReady s).prepend es := by
  cases h : s.params.resyncAfterPacket <;> simp [packetReady, h, State.prepend, State.emit, State.resync]

theorem prepend_dispatchEvent (r : State × ParserEvent) :
    dispatchEvent (prependParsed es r) = (dispatchEvent r).prepend es := by
  obtain ⟨u, ev⟩ := r
  cases ev with
  | none => rfl
  | transmitByte x => rfl
  | packetReady => exact prepend_packetReady es u

theorem prepend_completeByte (b : Byte) (t : Instant) :
    completeByte b t (s.prepend es) = mapNext (State.prepend es) (completeByte b t s) := by
  simp only [completeByte, prepend_parse, andThen_mapNext, mapNext_andThen, prepend_dispatchEvent]
  rfl

theorem prepend_transmitBit : transmitBit (s.prepend es) = (transmitBit s).prepend es := by
  simp [transmitBit, State.prepend, State.emit]

theorem prepend_preambleScan (d : Level) : preambleScan d (s.prepend es) = (preambleScan d s).prepend es := by
  unfold preambleScan
  split <;> split <;> first | rfl | contradiction

theorem prepend_receiveBit (d : Level) (t : Instant) :
    receiveBit d t (s.prepend es) = mapNext (State.prepend es) (receiveBit d t s) := by
  have hp : (s.prepend es).sync = s.sync := rfl
  unfold receiveBit
  rw [hp]
  split
  · exact prepend_completeByte es (beginFrame s) _ t
  · rfl

theorem prepend_actOnEdge (c d : Level) (t : Instant) :
    actOnEdge c d t (s.prepend es) = mapNext (State.prepend es) (actOnEdge c d t s) := by
  have hp : (s.prepend es).sync = s.sync := rfl
  unfold actOnEdge
  rw [hp]
  cases c <;> cases s.sync.synchronized
  · rfl
  · exact congrArg Host.Outcome.next (prepend_transmitBit es s)
  · exact congrArg Host.Outcome.next (prepend_preambleScan es s d)
  · exact prepend_receiveBit es s d t

/-- `EDGE` keeps a prefix of the event list. -/
theorem prepend_edge (c d : Level) (t : Instant) :
    edge c d t (s.prepend es) = mapNext (State.prepend es) (edge c d t s) := by
  have hp : (s.prepend es).sync = s.sync := rfl
  have hh : (s.prepend es).halted = s.halted := rfl
  unfold edge
  rw [hp, hh]
  split
  · rfl
  · split
    · rfl
    · split
      · rfl
      · exact prepend_actOnEdge es (recordLevel c s) c d t

/-- A sequence of edges keeps a prefix of the event list. -/
theorem prepend_edges (l : List (Level × Level)) (t : Instant) :
    edges l t (s.prepend es) = mapNext (State.prepend es) (edges l t s) := by
  induction l generalizing s with
  | nil => rfl
  | cons e rest ih =>
    obtain ⟨c, d⟩ := e
    simp only [edges, prepend_edge, andThen_mapNext, mapNext_andThen, ih]

/-- Edges one after the other are the edges of the joined list. -/
theorem edges_append (l m : List (Level × Level)) (t : Instant) :
    edges (l ++ m) t s = andThen (edges l t s) (edges m t) := by
  induction l generalizing s with
  | nil => rfl
  | cons e rest ih =>
    obtain ⟨c, d⟩ := e
    simp only [List.cons_append, edges, andThen_assoc]
    congr 1
    funext u
    exact ih u

end Sys2Proof.Machine
end

