-- ==== Sys2Proof/Laws/Parser.lean ====
section
/-!
SUPPORT. What the parser's parts can do, said once: if they answer a next state, one of these cases holds.
-/
namespace Sys2Proof.Machine

variable {s : State} {b : Byte} {t : Instant}

/-- The capacity that `PAYLOAD` compares with is that of the target (rule R148). -/
theorem payloadCapacity_target (p : Params) (tag : BufferTag) : payloadCapacity p (some tag) = p.capacity tag := by
  cases tag <;> rfl

/-- State `PAYLOAD` (rule R148): a violation, or the byte stored below the capacity of the target. -/
theorem consumePayload_cases {r : State × ParserEvent} (h : consumePayload b s = .next r) :
    (payloadCapacity s.params s.packet.payloadTarget ≤ s.packet.payloadIndex.toNat
      ∧ r = (s.raiseViolation .bufferOverrun, .none))
    ∨ ∃ tag, s.packet.payloadTarget = some tag ∧ s.packet.payloadIndex.toNat < s.params.capacity tag
      ∧ r = (leavePayload (storePayload tag b s), .none) := by
  unfold consumePayload at h
  split at h
  · cases h; exact .inl ⟨‹_›, rfl⟩
  · rename_i hcap
    split at h
    · cases h
    · rename_i tag htag
      cases h
      rw [htag, payloadCapacity_target] at hcap
      exact .inr ⟨tag, htag, Nat.lt_of_not_le hcap, rfl⟩

/-- The byte is stored where it fits (rule R148). -/
theorem consumePayload_store {tag : BufferTag} (htag : s.packet.payloadTarget = some tag)
    (hcap : s.packet.payloadIndex.toNat < s.params.capacity tag) :
    consumePayload b s = .next (leavePayload (storePayload tag b s), .none) := by
  unfold consumePayload
  rw [htag, payloadCapacity_target, if_neg (Nat.not_le.2 hcap)]

/-- The byte that does not fit raises `BUFFER_OVERRUN` (rule R148, rule R212). -/
theorem consumePayload_overrun {tag : BufferTag} (htag : s.packet.payloadTarget = some tag)
    (hcap : s.params.capacity tag ≤ s.packet.payloadIndex.toNat) :
    consumePayload b s = .next (s.raiseViolation .bufferOverrun, .none) := by
  unfold consumePayload
  rw [htag, payloadCapacity_target, if_pos hcap]

/-- `PARSE` (rule R140): the current state consumes the byte. -/
theorem parse_cases {r : State × ParserEvent} (h : parse b t s = .next r) :
    (s.parserState = .command ∧ r = consumeCommand b s)
    ∨ (s.parserState = .compression ∧ r = consumeCompression b s)
    ∨ (s.parserState = .lengthLow ∧ r = consumeLengthLow b s)
    ∨ (s.parserState = .lengthHigh ∧ r = consumeLengthHigh b s)
    ∨ (s.parserState = .payload ∧ consumePayload b s = .next r)
    ∨ (s.parserState = .checksumLow ∧ r = consumeChecksumLow b s)
    ∨ (s.parserState = .checksumHigh ∧ r = consumeChecksumHigh b s)
    ∨ (s.parserState = .deviceId ∧ r = consumeDeviceId b t s)
    ∨ (s.parserState = .status ∧ r = consumeStatus b s) := by
  unfold parse at h
  cases hp : s.parserState <;> rw [hp] at h <;> simp_all

/-- The length-field policy (rule R145). -/
theorem applyLengthPolicy_cases (s : State) :
    (s.packet.dataLength = 0#16 ∧ applyLengthPolicy s = enterChecksumLow s)
    ∨ (s.packet.dataLength ≠ 0#16 ∧ targetOf s.packet.command = none
      ∧ applyLengthPolicy s = s.raiseViolation .noPayloadTarget)
    ∨ ∃ tag, s.packet.dataLength ≠ 0#16 ∧ targetOf s.packet.command = some tag ∧ applyLengthPolicy s = enterPayload s := by
  unfold applyLengthPolicy
  split
  · exact .inl ⟨‹_›, rfl⟩
  · split
    · exact .inr (.inl ⟨‹_›, ‹_›, rfl⟩)
    · rename_i h
      obtain ⟨tag, htag⟩ := Option.ne_none_iff_exists'.1 h
      exact .inr (.inr ⟨tag, ‹_›, htag, rfl⟩)

/-- `BYTE` (rule R180): `PARSE`, the dispatch of its event, the deadline. -/
theorem completeByte_cases {u : State} (h : completeByte b t s = .next u) :
    ∃ r, parse b t s = .next r ∧ u = pushDeadline t (dispatchEvent r) := by
  obtain ⟨r, hr, hu⟩ := andThen_eq_next h
  cases hu
  exact ⟨r, hr, rfl⟩

/-- The two outcomes of a violation differ by the policy only (rule R214, rule R216). -/
theorem raiseViolation_cases (s : State) (cause : ViolationCause) :
    (s.params.violationPolicy = .resync ∧ s.raiseViolation cause = (s.recordViolation cause).resync)
    ∨ (s.params.violationPolicy = .halt
      ∧ s.raiseViolation cause = { s.recordViolation cause with halted := true }) := by
  cases h : s.params.violationPolicy
  · exact .inl ⟨rfl, by simp [State.raiseViolation, h]⟩
  · exact .inr ⟨rfl, by simp [State.raiseViolation, h]⟩

end Sys2Proof.Machine
end

