-- ==== Sys2Proof/Laws/PerInstr.lean ====
section
/-!
SUPPORT. Families of lemmas about instructions as syntax, one lemma per constructor (LAWS.json).

`EncodeTagged`: the record of an instruction begins with the tag of its format, so that the first byte settles the decoder's choice of
format.
-/
namespace Sys2Proof.Laws

/-- The tag of an instruction's record. -/
def tagOf : Instr → Byte
  | .reset => Tag.reset
  | .edge _ _ _ => Tag.edge
  | .poll _ => Tag.poll
  | .clearReady => Tag.clearReady
  | .isReady => Tag.isReady
  | .getImage => Tag.getImage
  | .getLastCommand => Tag.getLastCommand
  | .stage _ => Tag.stage
  | .byte _ _ => Tag.byte
  | .parse _ _ => Tag.parse
  | .sessionResync => Tag.sessionResync
  | .bitcell _ _ => Tag.bitcell
  | .frame _ _ => Tag.frame
  | .preamble _ => Tag.preamble
  | .slotCommand _ => Tag.slotCommand
  | .slotCompression _ => Tag.slotCompression
  | .slotLengthLow _ => Tag.slotLengthLow
  | .slotLengthHigh _ => Tag.slotLengthHigh
  | .slotPayload _ => Tag.slotPayload
  | .slotChecksumLow _ => Tag.slotChecksumLow
  | .slotChecksumHigh _ => Tag.slotChecksumHigh
  | .slotDeviceId _ _ => Tag.slotDeviceId
  | .slotStatus _ => Tag.slotStatus
  | .statusByte _ _ _ _ => Tag.statusByte
  | .init _ => Tag.packet
  | .print _ => Tag.packet
  | .data _ => Tag.packet
  | .inquiry _ => Tag.packet
  | .unknown _ _ => Tag.packet

/-- The record of `i`, in any instance, begins with the tag of `i`. -/
def EncodeTagged.Statement (i : Instr) : Prop := ∀ p : Params, (encode p i).head? = some (tagOf i)

theorem EncodeTagged.reset : EncodeTagged.Statement .reset := fun _ => rfl
theorem EncodeTagged.edge (c : Level) (d : Level) (t : Instant) : EncodeTagged.Statement (.edge c d t) := fun _ => rfl
theorem EncodeTagged.poll (t : Instant) : EncodeTagged.Statement (.poll t) := fun _ => rfl
theorem EncodeTagged.clearReady : EncodeTagged.Statement .clearReady := fun _ => rfl
theorem EncodeTagged.isReady : EncodeTagged.Statement .isReady := fun _ => rfl
theorem EncodeTagged.getImage : EncodeTagged.Statement .getImage := fun _ => rfl
theorem EncodeTagged.getLastCommand : EncodeTagged.Statement .getLastCommand := fun _ => rfl
theorem EncodeTagged.stage (b : Byte) : EncodeTagged.Statement (.stage b) := fun _ => rfl
theorem EncodeTagged.byte (b : Byte) (t : Instant) : EncodeTagged.Statement (.byte b t) := fun _ => rfl
theorem EncodeTagged.parse (b : Byte) (t : Instant) : EncodeTagged.Statement (.parse b t) := fun _ => rfl
theorem EncodeTagged.sessionResync : EncodeTagged.Statement .sessionResync := fun _ => rfl
theorem EncodeTagged.bitcell (d : Level) (t : Instant) : EncodeTagged.Statement (.bitcell d t) := fun _ => rfl
theorem EncodeTagged.frame (b : Byte) (t : Instant) : EncodeTagged.Statement (.frame b t) := fun _ => rfl
theorem EncodeTagged.preamble (t : Instant) : EncodeTagged.Statement (.preamble t) := fun _ => rfl
theorem EncodeTagged.slotCommand (b : Byte) : EncodeTagged.Statement (.slotCommand b) := fun _ => rfl
theorem EncodeTagged.slotCompression (b : Byte) : EncodeTagged.Statement (.slotCompression b) := fun _ => rfl
theorem EncodeTagged.slotLengthLow (b : Byte) : EncodeTagged.Statement (.slotLengthLow b) := fun _ => rfl
theorem EncodeTagged.slotLengthHigh (b : Byte) : EncodeTagged.Statement (.slotLengthHigh b) := fun _ => rfl
theorem EncodeTagged.slotPayload (b : Byte) : EncodeTagged.Statement (.slotPayload b) := fun _ => rfl
theorem EncodeTagged.slotChecksumLow (b : Byte) : EncodeTagged.Statement (.slotChecksumLow b) := fun _ => rfl
theorem EncodeTagged.slotChecksumHigh (b : Byte) : EncodeTagged.Statement (.slotChecksumHigh b) := fun _ => rfl
theorem EncodeTagged.slotDeviceId (b : Byte) (t : Instant) : EncodeTagged.Statement (.slotDeviceId b t) := fun _ => rfl
theorem EncodeTagged.slotStatus (b : Byte) : EncodeTagged.Statement (.slotStatus b) := fun _ => rfl
theorem EncodeTagged.statusByte (u : Bool) (f : Bool) (b : Bool) (e : Bool) : EncodeTagged.Statement (.statusByte u f b e) := fun _ => rfl
theorem EncodeTagged.init (m : PacketBody) : EncodeTagged.Statement (.init m) := fun _ => rfl
theorem EncodeTagged.print (m : PacketBody) : EncodeTagged.Statement (.print m) := fun _ => rfl
theorem EncodeTagged.data (m : PacketBody) : EncodeTagged.Statement (.data m) := fun _ => rfl
theorem EncodeTagged.inquiry (m : PacketBody) : EncodeTagged.Statement (.inquiry m) := fun _ => rfl
theorem EncodeTagged.unknown (b : Byte) (m : PacketBody) : EncodeTagged.Statement (.unknown b m) := fun _ => rfl

end Sys2Proof.Laws
end

