-- ==== Sys2Proof/Laws/Session.lean ====
section
/-!
SUPPORT. What the session controller's parts can do, said once.
-/
namespace Sys2Proof.Machine

variable {s : State} {t : Instant}

/-- The dispatch of `PARSE`'s event (rule R180): nothing, `STAGE`, or the end of a packet. -/
theorem dispatchEvent_cases (r : State × ParserEvent) :
    (r.2 = .none ∧ dispatchEvent r = r.1)
    ∨ (∃ x, r.2 = .transmitByte x ∧ dispatchEvent r = r.1.stageByte x)
    ∨ (r.2 = .packetReady ∧ dispatchEvent r = packetReady r.1) := by
  obtain ⟨u, ev⟩ := r
  cases ev with
  | none => exact .inl ⟨rfl, rfl⟩
  | transmitByte x => exact .inr (.inl ⟨x, rfl, rfl⟩)
  | packetReady => exact .inr (.inr ⟨rfl, rfl⟩)

/-- The end of a packet (rule R182, rule R183). -/
theorem packetReady_cases (s : State) :
    (s.params.resyncAfterPacket = true ∧ packetReady s = ({ s with readyFlag := true }.emit .packetReady).resync)
    ∨ (s.params.resyncAfterPacket = false ∧ packetReady s = { s with readyFlag := true }.emit .packetReady) := by
  cases h : s.params.resyncAfterPacket
  · exact .inr ⟨rfl, by simp [packetReady, h]⟩
  · exact .inl ⟨rfl, by simp [packetReady, h]⟩

/-- When the pretend print has elapsed (rule R185). -/
theorem printElapsed_iff (pretend : Option Instant) (t : Instant) :
    printElapsed pretend t = true ↔ ∃ limit, pretend = some limit ∧ limit.toNat ≤ t.toNat := by
  cases pretend <;> simp [printElapsed, BitVec.le_def]

/-- When the inactivity timeout fires (rule R187). -/
theorem timeoutElapsed_iff (ps : ParserState) (limit t : Instant) :
    timeoutElapsed ps limit t = true ↔ ps ≠ .command ∧ limit.toNat < t.toNat := by
  simp [timeoutElapsed, BitVec.lt_def]

/-- The pretend-print check of `POLL` (rule R185). -/
theorem checkPrint_cases (t : Instant) (s : State) :
    (printElapsed s.pretendPrintDeadline t = true
      ∧ checkPrint t s = { s with
          printer := { s.printer with printerBusy := false, printBufferFull := false }
          pretendPrintDeadline := none }.emit .printFinished)
    ∨ (printElapsed s.pretendPrintDeadline t = false ∧ checkPrint t s = s) := by
  cases h : printElapsed s.pretendPrintDeadline t
  · exact .inr ⟨rfl, by simp [checkPrint, h]⟩
  · exact .inl ⟨rfl, by simp [checkPrint, h]⟩

/-- The inactivity check of `POLL` (rule R187). -/
theorem checkTimeout_cases (t : Instant) (s : State) :
    (timeoutElapsed s.parserState s.timeoutDeadline t = true ∧ checkTimeout t s = s.resync.emit .timeoutFired)
    ∨ (timeoutElapsed s.parserState s.timeoutDeadline t = false ∧ checkTimeout t s = s) := by
  cases h : timeoutElapsed s.parserState s.timeoutDeadline t
  · exact .inr ⟨rfl, by simp [checkTimeout, h]⟩
  · exact .inl ⟨rfl, by simp [checkTimeout, h]⟩

end Sys2Proof.Machine
end

