-- ==== Sys2Proof/Laws/Streamer.lean ====
section
/-!
SUPPORT. What an `EDGE` can do, said once.
-/
namespace Sys2Proof.Machine

variable {s u : State} {c d : Level} {t : Instant}

/-- Every next state of an `EDGE` (rule R110 to rule R117). -/
theorem edge_cases (h : edge c d t s = .next u) :
    (s.halted = true ∧ u = s)
    ∨ (s.halted = false ∧ s.sync.initialized = false
      ∧ u = { s with sync := { s.sync with initialized := true, previousClockLevel := c } })
    ∨ (s.halted = false ∧ s.sync.initialized = true ∧ c = s.sync.previousClockLevel ∧ u = s)
    ∨ (s.halted = false ∧ s.sync.initialized = true ∧ c ≠ s.sync.previousClockLevel
      ∧ ((c = true ∧ s.sync.synchronized = false ∧ u = preambleScan d (recordLevel c s))
        ∨ (c = true ∧ s.sync.synchronized = true ∧ receiveBit d t (recordLevel c s) = .next u)
        ∨ (c = false ∧ s.sync.synchronized = true ∧ u = transmitBit (recordLevel c s))
        ∨ (c = false ∧ s.sync.synchronized = false ∧ u = recordLevel c s))) := by
  unfold edge at h
  split at h
  · cases h; exact .inl ⟨‹_›, rfl⟩
  · split at h
    · cases h; exact .inr (.inl ⟨by simp_all, ‹_›, rfl⟩)
    · split at h
      · cases h; exact .inr (.inr (.inl ⟨by simp_all, by simp_all, ‹_›, rfl⟩))
      · refine .inr (.inr (.inr ⟨by simp_all, by simp_all, ‹_›, ?_⟩))
        have hs : (recordLevel c s).sync.synchronized = s.sync.synchronized := rfl
        unfold actOnEdge at h
        rw [hs] at h
        cases c <;> cases hsync : s.sync.synchronized <;> rw [hsync] at h
        · cases h; exact .inr (.inr (.inr ⟨rfl, rfl, rfl⟩))
        · cases h; exact .inr (.inr (.inl ⟨rfl, rfl, rfl⟩))
        · cases h; exact .inl ⟨rfl, rfl, rfl⟩
        · exact .inr (.inl ⟨rfl, rfl, h⟩)

/-- An `EDGE` that acts (rule R110): not halted, not the first call, and the level changed. -/
theorem edge_acts (hh : s.halted = false) (hi : s.sync.initialized = true) (hc : c ≠ s.sync.previousClockLevel) :
    edge c d t s = actOnEdge c d t (recordLevel c s) := by
  simp [edge, hh, hi, hc]

@[simp] theorem recordLevel_synchronized (c : Level) (s : State) :
    (recordLevel c s).sync.synchronized = s.sync.synchronized := rfl

/-- A rising edge while not synchronized (rule R113). -/
theorem actOnEdge_scan (h : s.sync.synchronized = false) : actOnEdge true d t s = .next (preambleScan d s) := by
  simp [actOnEdge, h]

/-- A rising edge while synchronized (rule R114). -/
theorem actOnEdge_receive (h : s.sync.synchronized = true) : actOnEdge true d t s = receiveBit d t s := by
  simp [actOnEdge, h]

/-- A falling edge while synchronized (rule R116). -/
theorem actOnEdge_transmit (h : s.sync.synchronized = true) : actOnEdge false d t s = .next (transmitBit s) := by
  simp [actOnEdge, h]

/-- A falling edge while not synchronized (rule R117). -/
theorem actOnEdge_silent (h : s.sync.synchronized = false) : actOnEdge false d t s = .next s := by
  simp [actOnEdge, h]

/-- A bit received (rule R114), or a byte completed (rule R115). -/
theorem receiveBit_cases (h : receiveBit d t s = .next u) :
    (s.sync.bitPosition = 0#3
      ∧ completeByte (mergeBit s.sync.rxAccumulator s.sync.bitPosition d) t (beginFrame s) = .next u)
    ∨ (s.sync.bitPosition ≠ 0#3 ∧ u = { s with
        sync := { s.sync with
          rxAccumulator := mergeBit s.sync.rxAccumulator s.sync.bitPosition d
          bitPosition := s.sync.bitPosition - 1#3 } }) := by
  unfold receiveBit at h
  split at h
  · exact .inl ⟨‹_›, h⟩
  · cases h; exact .inr ⟨‹_›, rfl⟩

/-- The bits after a level is merged (rule R114). -/
theorem mergeBit_getLsbD (accumulator : Byte) (position : BitVec 3) (d : Level) (k : Nat) :
    (mergeBit accumulator position d).getLsbD k
      = (accumulator.getLsbD k || (d && decide (k = position.toNat))) := by
  have hpos : position.toNat < 8 := position.isLt
  cases d
  · simp [mergeBit]
  · simp only [mergeBit, if_true, BitVec.getLsbD_or, Bool.true_and]
    congr 1
    rw [show (1#8 <<< position.toNat) = BitVec.twoPow 8 position.toNat by simp [BitVec.twoPow_eq]]
    rw [BitVec.getLsbD_twoPow]
    by_cases hk : k = position.toNat
    · subst hk; simp [hpos]
    · simp [hk, Ne.symm hk]

/-- A property that every `EDGE` keeps is kept by a sequence of edges: the induction of the wire formats, once. -/
theorem edges_keep (P : State → Prop) (hP : ∀ c d t s u, P s → edge c d t s = .next u → P u)
    (l : List (Level × Level)) (t : Instant) (s u : State) (h0 : P s) (h : edges l t s = .next u) : P u := by
  induction l generalizing s with
  | nil => cases h; exact h0
  | cons e rest ih =>
    obtain ⟨c, d⟩ := e
    obtain ⟨v, hv, hu⟩ := andThen_eq_next h
    exact ih v (hP c d t s v h0 hv) hu

end Sys2Proof.Machine
end

