-- ==== Sys2Proof/Tests/Slice0.lean ====
section
/-!
SUPPORT. The implementer's tests. Expected values come from the rules and from spec/95_test_vectors.md (a vector's name stands beside its
test), never from a run of the model. Then, for every statement with hypotheses, a state and operands that meet them all.
-/
namespace Sys2Proof.Tests
open Sys2Proof.Machine

/-! ### Helpers -/

/-- Eight bytes of an instant: 1000 = 0x3E8, least significant byte first. -/
def at1000 : List Byte := [0xE8#8, 0x03#8, 0#8, 0#8, 0#8, 0#8, 0#8, 0#8]

/-- The usual instance with synchronisation kept after a packet. -/
def keeping : Params := { Params.usual with resyncAfterPacket := false }

/-- The usual instance with the halt policy. -/
def halting : Params := { Params.usual with violationPolicy := .halt }

/-- S0 of 95_test_vectors.md: after `RESET` and one `EDGE` with the clock at 1. -/
def s0 (p : Params) : State :=
  { State.reset with params := p, sync := { SyncState.reset with initialized := true, previousClockLevel := true } }

/-- S0 with a sync register, a fall of the clock seen or not. -/
def scanning (p : Params) (clock : Level) (register : Word16) : State :=
  { s0 p with sync := { (s0 p).sync with previousClockLevel := clock, syncShiftRegister := register } }

/-- The state after S3: synchronized, at the start of a frame. -/
def synced (p : Params) : State :=
  { s0 p with sync := { (s0 p).sync with synchronized := true, syncShiftRegister := p.syncWord } }

/-- Synchronized, inside a frame. -/
def inFrame (p : Params) (clock : Level) (position : BitVec 3) (received : Byte) : State :=
  { synced p with
    sync := { (synced p).sync with previousClockLevel := clock, bitPosition := position, rxAccumulator := received } }

/-- Synchronized, with the parser in a state. -/
def parsing (p : Params) (ps : ParserState) (k : Packet) : State := { synced p with parserState := ps, packet := k }

/-- A packet's registers: the command, the length, the target, the index, the computed sum and the received one. -/
def regs (c : Command) (length : Word16) (target : Option BufferTag) (index : BitVec 17) (sum received : Word16) : Packet :=
  { Packet.reset with
    command := c, dataLength := length, payloadTarget := target, payloadIndex := index, checksumComputed := sum,
    checksumReceived := received }

/-- A packet as the pseudo-operation `PACKET` of rule R97 sends it, at 1000. -/
def sent (payload : List Byte) (checksum : Word16) : PacketBody := ⟨0#8, payload, checksum, 0#8, 0#8, 1000#64⟩

/-- The next state's view, if the instruction answers one. -/
def after {α : Type} (i : Instr) (s : State) (view : State → α) : Option α :=
  match exec i s with
  | .next u => some (view u)
  | .fault _ => none
  | .refused _ => none

/-! ### WellFormed: each check refuses an ill-formed term -/

theorem test_wf_payload_too_long (b : Byte) :
    Instr.wf Params.usual (.data (sent (List.replicate 65536 b) 0#16)) = false := by
  simp only [Instr.wf, PacketBody.wf, sent, List.length_replicate]
  decide
theorem test_wf_unknown_init : Instr.wf Params.usual (.unknown 0x01#8 (sent [] 0#16)) = false := by decide
theorem test_wf_unknown_print : Instr.wf Params.usual (.unknown 0x02#8 (sent [] 0#16)) = false := by decide
theorem test_wf_unknown_data : Instr.wf Params.usual (.unknown 0x04#8 (sent [] 0#16)) = false := by decide
theorem test_wf_unknown_inquiry : Instr.wf Params.usual (.unknown 0x0F#8 (sent [] 0#16)) = false := by decide
theorem test_wf_equal_codes : Params.wf { Params.usual with cmdPrint := 0x01#8 } = false := by decide
theorem test_wf_equal_bits : Params.wf { Params.usual with bitUnprocessedData := 0 } = false := by decide
theorem test_wf_no_image : Params.wf { Params.usual with imageCapacity := 0 } = false := by decide
theorem test_wf_image_too_large : Params.wf { Params.usual with imageCapacity := 65536 } = false := by decide

/-! ### Decode: one record per constructor, written out from the formats -/

theorem decode_reset : decode Params.usual [1#8] = .ok (.reset, []) := by decide
theorem decode_edge : decode Params.usual ([2#8, 1#8, 0#8] ++ at1000) = .ok (.edge true false 1000#64, []) := by decide
theorem decode_poll : decode Params.usual (3#8 :: at1000) = .ok (.poll 1000#64, []) := by decide
theorem decode_clearReady : decode Params.usual [4#8, 7#8] = .ok (.clearReady, [7#8]) := by decide
theorem decode_isReady : decode Params.usual [5#8] = .ok (.isReady, []) := by decide
theorem decode_getImage : decode Params.usual [6#8] = .ok (.getImage, []) := by decide
theorem decode_getLastCommand : decode Params.usual [7#8] = .ok (.getLastCommand, []) := by decide
theorem decode_stage : decode Params.usual [8#8, 0xA5#8] = .ok (.stage 0xA5#8, []) := by decide
theorem decode_byte : decode Params.usual ([9#8, 0xA5#8] ++ at1000) = .ok (.byte 0xA5#8 1000#64, []) := by decide
theorem decode_parse : decode Params.usual ([10#8, 0xA5#8] ++ at1000) = .ok (.parse 0xA5#8 1000#64, []) := by decide
theorem decode_sessionResync : decode Params.usual [11#8] = .ok (.sessionResync, []) := by decide
theorem decode_bitcell : decode Params.usual ([12#8, 1#8] ++ at1000) = .ok (.bitcell true 1000#64, []) := by decide
theorem decode_frame : decode Params.usual ([13#8, 0b10100101#8] ++ at1000) = .ok (.frame 0xA5#8 1000#64, []) := by decide
/-- Rule R84: the bit sequence is 1000 1000 0011 0011. -/
theorem decode_preamble :
    decode Params.usual ([14#8, 0b10001000#8, 0b00110011#8] ++ at1000) = .ok (.preamble 1000#64, []) := by decide
theorem decode_slotCommand : decode Params.usual [15#8, 0x04#8] = .ok (.slotCommand 0x04#8, []) := by decide
theorem decode_slotCompression : decode Params.usual [16#8, 1#8] = .ok (.slotCompression 1#8, []) := by decide
theorem decode_slotLengthLow : decode Params.usual [17#8, 3#8] = .ok (.slotLengthLow 3#8, []) := by decide
theorem decode_slotLengthHigh : decode Params.usual [18#8, 2#8] = .ok (.slotLengthHigh 2#8, []) := by decide
theorem decode_slotPayload : decode Params.usual [19#8, 0x11#8] = .ok (.slotPayload 0x11#8, []) := by decide
theorem decode_slotChecksumLow : decode Params.usual [20#8, 0x6D#8] = .ok (.slotChecksumLow 0x6D#8, []) := by decide
theorem decode_slotChecksumHigh : decode Params.usual [21#8, 1#8] = .ok (.slotChecksumHigh 1#8, []) := by decide
theorem decode_slotDeviceId :
    decode Params.usual ([22#8, 0#8] ++ at1000) = .ok (.slotDeviceId 0#8 1000#64, []) := by decide
theorem decode_slotStatus : decode Params.usual [23#8, 0#8] = .ok (.slotStatus 0#8, []) := by decide
/-- Rule R92, usual layout 0000ufbe: u = 1, f = 0, b = 1, e = 0. -/
theorem decode_statusByte :
    decode Params.usual [24#8, 0b00001010#8] = .ok (.statusByte true false true false, []) := by decide
/-- Vector V-P1: 01 00 00 00 01 00 00 00. -/
theorem decode_init :
    decode Params.usual ([25#8, 0x01#8, 0#8, 0#8, 0#8, 0x01#8, 0#8, 0#8, 0#8] ++ at1000)
      = .ok (.init (sent [] 0x0001#16), []) := by decide
/-- Vector V-PR4: 02 00 04 00 01 13 E4 40 3E 01 00 00. -/
theorem decode_print :
    decode Params.usual ([25#8, 0x02#8, 0#8, 4#8, 0#8, 0x01#8, 0x13#8, 0xE4#8, 0x40#8, 0x3E#8, 0x01#8, 0#8, 0#8] ++ at1000)
      = .ok (.print (sent [0x01#8, 0x13#8, 0xE4#8, 0x40#8] 0x013E#16), []) := by decide
/-- Vector V-P2: 04 00 03 00 11 22 33 6D 00 00 00. -/
theorem decode_data :
    decode Params.usual ([25#8, 0x04#8, 0#8, 3#8, 0#8, 0x11#8, 0x22#8, 0x33#8, 0x6D#8, 0#8, 0#8, 0#8] ++ at1000)
      = .ok (.data (sent [0x11#8, 0x22#8, 0x33#8] 0x006D#16), []) := by decide
/-- Vector V-INQ: 0F 00 00 00 0F 00 00 00. -/
theorem decode_inquiry :
    decode Params.usual ([25#8, 0x0F#8, 0#8, 0#8, 0#8, 0x0F#8, 0#8, 0#8, 0#8] ++ at1000)
      = .ok (.inquiry (sent [] 0x000F#16), []) := by decide
/-- Vector V-UNK0: 88 33 00 00 BB 00 00 00. -/
theorem decode_unknown :
    decode Params.usual ([25#8, 0x88#8, 0x33#8, 0#8, 0#8, 0xBB#8, 0#8, 0#8, 0#8] ++ at1000)
      = .ok (.unknown 0x88#8 ⟨0x33#8, [], 0x00BB#16, 0#8, 0#8, 1000#64⟩, []) := by decide

/-! What is no record is refused by name. -/

theorem refuse_empty : decode Params.usual [] = .error .truncated := by decide
theorem refuse_tag : decode Params.usual [26#8] = .error (.unknownTag 26#8) := by decide
theorem refuse_level : decode Params.usual ([2#8, 2#8, 0#8] ++ at1000) = .error (.badLevel 2#8) := by decide
theorem refuse_sync_word : decode Params.usual ([14#8, 0x33#8, 0x88#8] ++ at1000) = .error (.notSyncWord 0x3388#16) := by
  decide
theorem refuse_status_bits : decode Params.usual [24#8, 0x10#8] = .error (.reservedStatusBits 0x10#8) := by decide
theorem refuse_short_packet : decode Params.usual [25#8, 4#8, 0#8, 3#8, 0#8, 0x11#8] = .error .truncated := by decide

/-! The words of the opcode table that have a match value (rule R95). -/

theorem word_preamble : decodeTableWord 16 0x8833 = some (.preamble 0#64) := by decide
theorem word_init : decodeTableWord 8 0x01 = some (.init ⟨0#8, [], 0#16, 0#8, 0#8, 0#64⟩) := by decide
theorem word_print : decodeTableWord 8 0x02 = some (.print ⟨0#8, [], 0#16, 0#8, 0#8, 0#64⟩) := by decide
theorem word_data : decodeTableWord 8 0x04 = some (.data ⟨0#8, [], 0#16, 0#8, 0#8, 0#64⟩) := by decide
theorem word_inquiry : decodeTableWord 8 0x0F = some (.inquiry ⟨0#8, [], 0#16, 0#8, 0#8, 0#64⟩) := by decide
/-- The first step after reset runs the word placed there: an `INQUIRY` packet, to a core that has seen no edge. -/
theorem word_runs : step (State.reset.withFetchWord 8 0x0F) = exec (.inquiry ⟨0#8, [], 0#16, 0#8, 0#8, 0#64⟩) State.reset := by
  rfl

/-! ### One step each -/

/-- Vector Z1. -/
theorem test_reset :
    after .reset (inFrame halting false 3#3 0xA0#8) (fun u => (u.sync, u.parserState, u.readyFlag))
      = some (SyncState.reset, .command, false) := by decide
/-- Vector S3, last edge: 4419 becomes 8833. -/
theorem test_edge_sync :
    after (.edge true true 1000#64) (scanning Params.usual false 0x4419#16)
      (fun u => (u.sync.syncShiftRegister, u.sync.synchronized, u.sync.bitPosition)) = some (0x8833#16, true, 7#3) := by decide
/-- Rule R115, example: 32 and a last bit 1 complete the byte 33, here the last payload byte of V-P2. -/
theorem test_edge_byte :
    after (.edge true true 1000#64)
      { inFrame Params.usual false 0#3 0x32#8 with
        parserState := .payload, packet := regs .data 3#16 (some .image) 2#17 0x003A#16 0#16 }
      (fun u => (u.imageBuffer, u.packet.checksumComputed, u.parserState, u.timeoutDeadline))
      = some ([(2, 0x33#8)], 0x006D#16, .checksumLow, 1100#64) := by decide
/-- Vector T7: both checks. -/
theorem test_poll_both :
    after (.poll 3051#64)
      { parsing Params.usual .lengthLow Packet.reset with
        printer := ⟨false, false, true, true⟩, pretendPrintDeadline := some 3000#64, timeoutDeadline := 3050#64 }
      (fun u => (u.printer, u.parserState, u.sync.synchronized, u.events))
      = some (⟨false, false, false, false⟩, .command, false, [.printFinished, .timeoutFired]) := by decide
/-- Vector T1: `POLL @1100` does nothing. -/
theorem test_poll_early :
    after (.poll 1100#64) { parsing Params.usual .lengthHigh Packet.reset with timeoutDeadline := 1100#64 }
      (fun u => (u.parserState, u.sync.synchronized, u.events)) = some (.lengthHigh, true, []) := by decide
/-- Vector T8. -/
theorem test_clearReady :
    after .clearReady { synced Params.usual with readyFlag := true } (fun u => u.readyFlag) = some false := by decide
theorem test_isReady :
    after .isReady { synced Params.usual with readyFlag := true } (fun u => u.result) = some (some (.ready true)) := by decide
/-- Vector T11, on a buffer of three bytes. -/
theorem test_getImage :
    after .getImage
      { synced { Params.usual with imageCapacity := 3 } with imageBuffer := [(0, 0x11#8), (1, 0x22#8), (2, 0x33#8)] }
      (fun u => u.result) = some (some (.image [0x11#8, 0x22#8, 0x33#8])) := by decide
theorem test_getLastCommand :
    after .getLastCommand (s0 Params.usual) (fun u => u.result) = some (some (.command .unknown)) := by decide
/-- Rule R118, example. -/
theorem test_stage :
    after (.stage 0x81#8) (synced Params.usual) (fun u => (u.sync.txStaged, u.sync.txStagedValid))
      = some (0x81#8, true) := by decide
/-- Rule R180, example: the high checksum byte at 1000 stages 81. -/
theorem test_byte :
    after (.byte 0x00#8 1000#64) (parsing Params.usual .checksumHigh (regs .data 3#16 (some .image) 3#17 0x6D#16 0x6D#16))
      (fun u => (u.sync.txStaged, u.sync.txStagedValid, u.timeoutDeadline)) = some (0x81#8, true, 1100#64) := by decide
/-- Vector X1: the byte that completes a length of 1 for `INIT`. -/
theorem test_byte_violation :
    after (.byte 0x00#8 1000#64) (parsing Params.usual .lengthHigh (regs .init 1#16 none 0#17 2#16 0#16))
      (fun u => (u.violationCause, u.parserState, u.sync.synchronized, u.events, u.timeoutDeadline))
      = some (.noPayloadTarget, .command, false, [.protocolViolation .noPayloadTarget], 1100#64) := by decide
/-- Vector V-P2, first byte. -/
theorem test_parse :
    after (.parse 0x04#8 1000#64) (synced Params.usual) (fun u => (u.packet.command, u.packet.checksumComputed, u.parserState))
      = some (.data, 0x0004#16, .compression) := by decide
/-- Rule R186, example: from `PAYLOAD` with `bit_position` = 3. -/
theorem test_sessionResync :
    after .sessionResync { inFrame Params.usual true 3#3 0xA0#8 with parserState := .payload, imageBuffer := [(0, 9#8)] }
      (fun u => (u.sync.bitPosition, u.sync.rxAccumulator, u.parserState, u.imageBuffer))
      = some (7#3, 0#8, .command, [(0, 9#8)]) := by decide
/-- Vector S6, third bit cell: 80 at position 5 becomes A0 at position 4. -/
theorem test_bitcell :
    after (.bitcell true 1000#64) (inFrame Params.usual true 5#3 0x80#8)
      (fun u => (u.sync.rxAccumulator, u.sync.bitPosition, u.events)) = some (0xA0#8, 4#3, [.driveOut false]) := by decide
/-- Vectors S6 and S7: a frame receives A5 while the staged A5 goes out. -/
theorem test_frame :
    after (.frame 0xA5#8 1000#64)
      { synced Params.usual with sync := { (synced Params.usual).sync with txStaged := 0xA5#8, txStagedValid := true } }
      (fun u => (u.packet.checksumComputed, u.parserState, u.events))
      = some (0x00A5#16, .compression, [.driveOut true, .driveOut false, .driveOut true, .driveOut false,
          .driveOut false, .driveOut true, .driveOut false, .driveOut true]) := by decide +kernel
/-- Vector S3. -/
theorem test_preamble :
    after (.preamble 1000#64) (s0 Params.usual) (fun u => (u.sync.synchronized, u.sync.syncShiftRegister, u.events))
      = some (true, 0x8833#16, []) := by decide +kernel
/-- Vector S9, first byte. -/
theorem test_slotCommand :
    after (.slotCommand 0x88#8) (synced Params.usual) (fun u => (u.packet.command, u.packet.checksumComputed))
      = some (.unknown, 0x0088#16) := by decide
/-- Vector S9, second byte. -/
theorem test_slotCompression :
    after (.slotCompression 0x33#8) (parsing Params.usual .compression (regs .unknown 0#16 none 0#17 0x88#16 0#16))
      (fun u => (u.packet.compressionFlag, u.packet.checksumComputed, u.parserState)) = some (0x33#8, 0x00BB#16, .lengthLow) := by
  decide
/-- Vector V-LEN: `04 00 FF` has the sum 0103. -/
theorem test_slotLengthLow :
    after (.slotLengthLow 0xFF#8) (parsing Params.usual .lengthLow (regs .data 0#16 none 0#17 4#16 0#16))
      (fun u => (u.packet.dataLength, u.packet.checksumComputed)) = some (255#16, 0x0103#16) := by decide
/-- Vector V-LEN: `04 00 FF FF`. -/
theorem test_slotLengthHigh :
    after (.slotLengthHigh 0xFF#8) (parsing Params.usual .lengthHigh (regs .data 255#16 none 9#17 0x0103#16 0#16))
      (fun u => (u.packet.dataLength, u.packet.checksumComputed, u.parserState, u.packet.payloadTarget, u.packet.payloadIndex))
      = some (65535#16, 0x0202#16, .payload, some .image, 0#17) := by decide
/-- Rule R148, example. -/
theorem test_slotPayload :
    after (.slotPayload 0x33#8) (parsing Params.usual .payload (regs .data 3#16 (some .image) 2#17 0x3A#16 0#16))
      (fun u => (u.imageBuffer, u.packet.payloadIndex, u.parserState)) = some ([(2, 0x33#8)], 3#17, .checksumLow) := by decide
/-- Vector X3: the fifth byte of a `PRINT`. -/
theorem test_slotPayload_overrun :
    after (.slotPayload 0x05#8) (parsing Params.usual .payload (regs .print 5#16 (some .settings) 4#17 0x11#16 0#16))
      (fun u => (u.settingsBuffer, u.packet.checksumComputed, u.violationCause, u.parserState))
      = some ([], 0x0011#16, .bufferOverrun, .command) := by decide
/-- Rule R150, example. -/
theorem test_slotChecksumLow :
    after (.slotChecksumLow 0x6D#8) (parsing Params.usual .checksumLow Packet.reset)
      (fun u => (u.packet.checksumReceived, u.packet.checksumComputed)) = some (0x006D#16, 0#16) := by decide
/-- Vector V-PR4: the received sum is 013E. -/
theorem test_slotChecksumHigh :
    after (.slotChecksumHigh 0x01#8) (parsing Params.usual .checksumHigh (regs .print 4#16 none 4#17 0x13E#16 0x3E#16))
      (fun u => (u.packet.checksumReceived, u.packet.deviceAckByte, u.result))
      = some (0x013E#16, 0x81#8, some (.parserEvent (.transmitByte 0x81#8))) := by decide
/-- Rule R154, example. -/
theorem test_slotDeviceId_print :
    after (.slotDeviceId 0xFF#8 1000#64) (parsing Params.usual .deviceId (regs .print 0#16 none 0#17 2#16 2#16))
      (fun u => (u.printer, u.packet.statusByte, u.pretendPrintDeadline))
      = some (⟨false, false, true, true⟩, 0x06#8, some 3000#64) := by decide
/-- Vector V-BAD: the status byte is 09. -/
theorem test_slotDeviceId_bad :
    after (.slotDeviceId 0#8 1000#64) (parsing Params.usual .deviceId (regs .data 3#16 (some .image) 3#17 0x6D#16 0x6E#16))
      (fun u => (u.printer, u.packet.statusByte, u.result))
      = some (⟨true, true, false, false⟩, 0x09#8, some (.parserEvent (.transmitByte 0x09#8))) := by decide
theorem test_slotStatus :
    after (.slotStatus 0xFF#8) (parsing Params.usual .status Packet.reset) (fun u => (u.parserState, u.result, u.readyFlag))
      = some (.command, some (.parserEvent .packetReady), false) := by decide
/-- Rule R92, usual layout: full and busy are 06; vector T5: with unprocessed data 0E. -/
theorem test_statusByte :
    after (.statusByte true true true false) (synced Params.usual) (fun u => u.packet.statusByte) = some 0x0E#8 := by decide
/-- Vector V-P1, kept synchronisation. -/
theorem test_init :
    after (.init (sent [] 0x0001#16)) (synced keeping)
      (fun u => (u.parserState, u.packet.command, u.packet.deviceAckByte, u.packet.statusByte, u.readyFlag, u.timeoutDeadline))
      = some (.command, .init, 0x81#8, 0x00#8, true, 1100#64) := by decide +kernel
/-- Vector V-PR4. -/
theorem test_print :
    after (.print (sent [0x01#8, 0x13#8, 0xE4#8, 0x40#8] 0x013E#16)) (synced Params.usual)
      (fun u => (u.settingsBuffer, u.packet.statusByte, u.pretendPrintDeadline, u.violationFlag))
      = some ([(0, 0x01#8), (1, 0x13#8), (2, 0xE4#8), (3, 0x40#8)], 0x06#8, some 3000#64, false) := by decide +kernel
/-- Vector V-P2. -/
theorem test_data :
    after (.data (sent [0x11#8, 0x22#8, 0x33#8] 0x006D#16)) (synced Params.usual)
      (fun u => (u.imageBuffer, u.packet.statusByte, u.printer.checksumError, u.readyFlag))
      = some ([(0, 0x11#8), (1, 0x22#8), (2, 0x33#8)], 0x08#8, false, true) := by decide +kernel
/-- Vector V-P2x: with `PAYLOAD_EXTRA` = 1 the packet is not finished. -/
theorem test_data_extra :
    after (.data (sent [0x11#8, 0x22#8, 0x33#8] 0x006D#16)) (synced { Params.usual with payloadExtra := 1 })
      (fun u => (u.parserState, u.packet.payloadIndex, u.packet.checksumComputed, u.sync.txStaged, u.readyFlag))
      = some (.status, 4#17, 0x00DA#16, 0x09#8, false) := by decide +kernel
/-- Vector V-INQ. -/
theorem test_inquiry :
    after (.inquiry (sent [] 0x000F#16)) (synced Params.usual)
      (fun u => (u.packet.checksumComputed, u.packet.checksumReceived, u.readyFlag, u.sync.synchronized))
      = some (0x000F#16, 0x000F#16, true, false) := by decide +kernel
/-- Vector V-UNK0. -/
theorem test_unknown :
    after (.unknown 0x88#8 ⟨0x33#8, [], 0x00BB#16, 0#8, 0#8, 1000#64⟩) (synced Params.usual)
      (fun u => (u.packet.command, u.packet.compressionFlag, u.printer.checksumError, u.readyFlag))
      = some (.unknown, 0x33#8, false, true) := by decide +kernel

/-- The codes of rule R210. -/
theorem test_codes :
    (ViolationCause.none.code, ViolationCause.noPayloadTarget.code, ViolationCause.bufferOverrun.code) = (0#2, 1#2, 2#2) := rfl

/-! ### Witnesses: states and operands that meet a statement's hypotheses -/

/-- A state of the usual kind between two bytes is consistent, with the parser in a state that constrains no Packet field. -/
theorem synced_consistent (p : Params) : (synced p).Consistent where
  settingsCanonical := rfl
  imageCanonical := rfl
  settingsBounded := fun c h => by cases h
  imageBounded := fun c h => by cases h
  notResting := by simp [synced, s0, State.reset]
  violationRecord := by simp [synced, s0, State.reset]
  busyIsFull := rfl
  busyIsArmed := rfl
  haltedByPolicy := fun h => by cases h
  preSync := fun h => by cases h
  unreceived := fun _ _ => BitVec.getLsbD_zero
  syncWordHeld := fun _ => rfl
  firstCall := fun h => by cases h
  staged := fun h => by cases h
  lengthLowFirst := fun h => by cases h
  lengthHighNext := fun h => by cases h
  collecting := fun h => by cases h
  lengthNeedsTarget := fun h => by cases h
  indexRange := Nat.zero_le _

/-- The same with a byte staged for the frame that begins. -/
theorem staged_consistent (p : Params) (b : Byte) :
    State.Consistent { synced p with sync := { (synced p).sync with txStaged := b, txStagedValid := true } } :=
  { synced_consistent p with
    preSync := fun h => by cases h
    unreceived := fun _ _ => BitVec.getLsbD_zero
    staged := fun _ => ⟨rfl, rfl⟩
    collecting := fun h => by cases h }

/-- The state of vector T3 before its last rising edge, in `COMPRESSION`. -/
def lastBitOfCompression : State :=
  { inFrame Params.usual false 0#3 0#8 with
    parserState := .compression, packet := regs .data 0#16 none 0#17 4#16 0#16, timeoutDeadline := 1100#64 }

theorem lastBitOfCompression_consistent : lastBitOfCompression.Consistent :=
  { synced_consistent Params.usual with
    settingsBounded := fun c h => by cases h
    imageBounded := fun c h => by cases h
    notResting := fun h => by cases h
    preSync := fun h => by cases h
    unreceived := fun _ _ => BitVec.getLsbD_zero
    staged := fun h => by cases h
    lengthLowFirst := fun h => by cases h
    lengthHighNext := fun h => by cases h
    collecting := fun h => by cases h
    lengthNeedsTarget := fun h => by cases h
    indexRange := Nat.zero_le _ }

theorem synced_frameStart (p : Params) : (synced p).AtFrameStart := ⟨rfl, rfl, rfl, rfl, rfl, rfl⟩
theorem synced_packetStart (p : Params) : (synced p).AtPacketStart := ⟨synced_frameStart p, rfl, rfl⟩

theorem witness_DecodeEncodeAgree_data :
    Params.usual.wf = true ∧ Instr.wf Params.usual (.data (sent [0x11#8] 0x16#16)) = true := by decide
theorem witness_DecodeEncodeAgree_unknown :
    Params.usual.wf = true ∧ Instr.wf Params.usual (.unknown 0x88#8 (sent [] 0x88#16)) = true := by decide
theorem witness_CommandDecodeByEquality : Params.usual.wf = true := by decide
theorem witness_StepRunsDecodedInstruction :
    (State.reset.withFetchWord 16 0x8833).params.wf = true
    ∧ decode (State.reset.withFetchWord 16 0x8833).params (State.reset.withFetchWord 16 0x8833).inputs
      = .ok (.preamble 0#64, []) := by decide
theorem witness_CoincidingConstantsRefused_codes :
    ¬ (let p := { Params.usual with cmdInquiry := 0x04#8 }
       [p.cmdInit, p.cmdPrint, p.cmdData, p.cmdInquiry].Nodup) := by decide
theorem witness_CoincidingConstantsRefused_bits :
    ¬ (let p := { Params.usual with bitPrinterBusy := 3 }
       [p.bitChecksumError, p.bitPrinterBusy, p.bitPrintBufferFull, p.bitUnprocessedData].Nodup) := by decide
theorem witness_IdleStepChangesNothing : State.reset.params.wf = true ∧ State.reset.inputs = [] := by decide
theorem witness_FirstEdgeOnlyRecords :
    State.reset.halted = false ∧ State.reset.sync.initialized = false := by decide
theorem witness_UnchangedLevelIsNoOp :
    (s0 Params.usual).sync.initialized = true ∧ true = (s0 Params.usual).sync.previousClockLevel := by decide
/-- The completing level, and one that does not complete the sync word. -/
theorem witness_RisingEdgeScansPreamble :
    let s := scanning Params.usual false 0x4419#16
    s.halted = false ∧ s.sync.initialized = true ∧ s.sync.previousClockLevel = false ∧ s.sync.synchronized = false
    ∧ BitVec.ofNat 16 (2 * s.sync.syncShiftRegister.toNat + true.toNat) = s.params.syncWord
    ∧ BitVec.ofNat 16 (2 * s.sync.syncShiftRegister.toNat + false.toNat) ≠ s.params.syncWord := by decide
theorem witness_FallingEdgeUnsynchronizedIsSilent :
    let s := s0 Params.usual
    s.halted = false ∧ s.sync.initialized = true ∧ s.sync.previousClockLevel = true ∧ s.sync.synchronized = false := by decide
/-- At the start of a frame (position 7) and at its last bit (position 0). -/
theorem witness_FallingEdgeTransmits :
    ∀ position ∈ [7#3, 0#3],
      let s := inFrame Params.usual true position 0#8
      s.halted = false ∧ s.sync.initialized = true ∧ s.sync.previousClockLevel = true ∧ s.sync.synchronized = true
      ∧ s.sync.bitPosition = position := by decide
/-- At both ends of the range, position 7 and position 1. -/
theorem witness_RisingEdgeReceivesBit :
    ∀ position ∈ [7#3, 1#3],
      let s := inFrame Params.usual false position 0#8
      s.halted = false ∧ s.sync.initialized = true ∧ s.sync.previousClockLevel = false ∧ s.sync.synchronized = true
      ∧ s.sync.bitPosition ≠ 0#3 := by decide
theorem witness_RisingEdgeCompletesByte :
    let s := inFrame Params.usual false 0#3 0x32#8
    s.halted = false ∧ s.sync.initialized = true ∧ s.sync.previousClockLevel = false ∧ s.sync.synchronized = true
    ∧ s.sync.bitPosition = 0#3 := by decide
theorem witness_EdgeStoresItsLevel :
    (s0 Params.usual).halted = false ∧ ∃ u, exec (.edge false true 5#64) (s0 Params.usual) = .next u := ⟨rfl, _, rfl⟩
theorem witness_ParseIsTheSlotOfItsState (ps : ParserState) :
    (parsing Params.usual ps Packet.reset).parserState = ps := rfl
/-- Length 0; the least and the greatest length for `DATA` and for `PRINT`. -/
theorem witness_LengthFieldSelectsNextState :
    (∃ s : State, (0#16).toNat = (0#8).toNat * 256 + s.packet.dataLength.toNat % 256)
    ∧ ∀ c ∈ [Command.data, Command.print],
      (let s := parsing Params.usual .lengthHigh (regs c 1#16 none 0#17 0#16 0#16)
       (1#16).toNat = (0#8).toNat * 256 + s.packet.dataLength.toNat % 256 ∧ (1#16 : Word16) ≠ 0#16 ∧ s.packet.command = c)
      ∧ (let s := parsing Params.usual .lengthHigh (regs c 255#16 none 0#17 0#16 0#16)
         (65535#16).toNat = (255#8).toNat * 256 + s.packet.dataLength.toNat % 256 ∧ (65535#16 : Word16) ≠ 0#16
         ∧ s.packet.command = c) :=
  ⟨⟨State.reset, rfl⟩, by decide⟩
/-- The least and the greatest length for each command without a target. -/
theorem witness_LengthWithoutTargetViolates :
    ∀ c ∈ [Command.init, .inquiry, .unknown],
      (let s := parsing Params.usual .lengthHigh (regs c 1#16 none 0#17 0#16 0#16)
       (1#16).toNat = (0#8).toNat * 256 + s.packet.dataLength.toNat % 256 ∧ s.parserState = .lengthHigh
       ∧ s.params.violationPolicy = .resync ∧ (1#16 : Word16) ≠ 0#16
       ∧ (s.packet.command = .init ∨ s.packet.command = .inquiry ∨ s.packet.command = .unknown))
      ∧ (let s := parsing Params.usual .lengthHigh (regs c 255#16 none 0#17 0#16 0#16)
         (65535#16).toNat = (255#8).toNat * 256 + s.packet.dataLength.toNat % 256 ∧ s.parserState = .lengthHigh
         ∧ (65535#16 : Word16) ≠ 0#16) := by decide
/-- The first byte, and the last that fits, of each buffer; the end of the payload reached (length 4) and not (length 5). -/
theorem witness_PayloadByteStored :
    ∀ index ∈ [0#17, 3#17],
      let s := parsing Params.usual .payload (regs .print 4#16 (some .settings) index 0#16 0#16)
      s.packet.payloadTarget = some .settings ∧ s.packet.payloadIndex.toNat < s.params.capacity .settings
      ∧ s.packet.payloadIndex.toNat < 65536 := by
  intro index hi
  simp only [List.mem_cons, List.not_mem_nil, or_false] at hi
  rcases hi with rfl | rfl <;> exact ⟨rfl, by decide, by decide⟩
theorem witness_PayloadByteStored_image :
    let s := parsing Params.usual .payload (regs .data 651#16 (some .image) 649#17 0#16 0#16)
    s.packet.payloadTarget = some .image ∧ s.packet.payloadIndex.toNat < s.params.capacity .image
    ∧ s.packet.payloadIndex.toNat < 65536
    ∧ ¬ s.packet.dataLength.toNat + s.params.payloadExtra.val ≤ s.packet.payloadIndex.toNat + 1 := by decide
theorem witness_PayloadOverrunViolates :
    let s := parsing Params.usual .payload (regs .print 5#16 (some .settings) 4#17 0#16 0#16)
    s.parserState = .payload ∧ s.packet.payloadTarget = some .settings
    ∧ s.params.capacity .settings ≤ s.packet.payloadIndex.toNat ∧ s.params.violationPolicy = .resync := by decide
theorem witness_PayloadWithoutTargetStops :
    let s := parsing Params.usual .payload (regs .init 1#16 none 649#17 0#16 0#16)
    s.packet.payloadTarget = none ∧ s.packet.payloadIndex.toNat < s.params.imageCapacity := by decide
theorem witness_StatusByteBitPerFlag : Params.usual.wf = true := by decide
theorem witness_ParserStateSequence :
    ∀ ps ∈ [ParserState.command, .compression, .lengthLow, .lengthHigh, .payload, .checksumLow, .checksumHigh, .deviceId,
        .status],
      let s := parsing Params.usual ps (regs .data 3#16 (some .image) 2#17 0#16 0#16)
      s.parserState ≠ .packetReceived
      ∧ (s.parserState = .payload → s.packet.payloadTarget ≠ none ∧ s.packet.payloadIndex.toNat < 65536) := by decide
theorem witness_ByteWithoutEventPushesDeadline :
    ∀ ps ∈ [ParserState.command, .compression, .lengthLow, .checksumLow],
      let s := parsing Params.usual ps Packet.reset
      s.parserState = .command ∨ s.parserState = .compression ∨ s.parserState = .lengthLow ∨ s.parserState = .checksumLow := by
  decide
/-- The last byte of a payload, and a violation: `PARSE` returns no event. -/
theorem witness_ByteWithoutEventPushesDeadline_payload :
    ∀ k ∈ [regs .data 3#16 (some .image) 2#17 0#16 0#16, regs .print 5#16 (some .settings) 4#17 0#16 0#16],
      after (.parse 0x33#8 0#64) (parsing Params.usual .payload k) (fun u => u.result) = some (some (.parserEvent .none)) := by
  decide
theorem witness_EveryBytePushesDeadline : ∃ u, exec (.byte 0#8 1000#64) (synced Params.usual) = .next u := ⟨_, rfl⟩
theorem witness_ByteStagesResponse :
    ∀ ps ∈ [ParserState.checksumHigh, .deviceId],
      let s := parsing Params.usual ps Packet.reset
      s.parserState = .checksumHigh ∨ s.parserState = .deviceId := by decide
theorem witness_LastByteReportsPacket : (parsing keeping .status Packet.reset).parserState = .status := rfl
/-- The least instant that fires each check, and the greatest that does not. -/
theorem witness_PollChecksBothDeadlines :
    let s := { parsing Params.usual .payload Packet.reset with
      pretendPrintDeadline := some 3000#64, timeoutDeadline := 3000#64 }
    s.halted = false ∧ s.parserState ≠ .command
    ∧ s.pretendPrintDeadline = some 3000#64
    ∧ ((3000#64).toNat ≤ (3001#64).toNat ∧ s.timeoutDeadline.toNat < (3001#64).toNat)
    ∧ ((3000#64).toNat ≤ (3000#64).toNat ∧ ¬ s.timeoutDeadline.toNat < (3000#64).toNat)
    ∧ (¬ (3000#64).toNat ≤ (2999#64).toNat ∧ ¬ s.timeoutDeadline.toNat < (2999#64).toNat) := by decide
/-- No pretend print armed, and the packet stalled. -/
theorem witness_PollChecksBothDeadlines_stalled :
    let s := { parsing Params.usual .payload Packet.reset with timeoutDeadline := 1100#64 }
    s.halted = false ∧ s.parserState ≠ .command ∧ s.pretendPrintDeadline = none
    ∧ s.timeoutDeadline.toNat < (1101#64).toNat := by decide
/-- The last offset of a buffer, written. -/
theorem witness_ImageQueryReturnsBuffer :
    let s := { synced Params.usual with imageBuffer := [(649, 7#8)] }
    649 < s.params.imageCapacity ∧ Buffer.read s.imageBuffer 649 = some 7#8 := by decide
theorem witness_HaltedUntilReset_overrun :
    let s := parsing halting .payload (regs .print 5#16 (some .settings) 4#17 0#16 0#16)
    s.params.violationPolicy = .halt ∧ s.parserState = .payload ∧ s.packet.payloadTarget = some .settings
    ∧ s.params.capacity .settings ≤ s.packet.payloadIndex.toNat := by decide
theorem witness_HaltedUntilReset_target :
    let s := parsing halting .lengthHigh (regs .init 1#16 none 0#17 0#16 0#16)
    s.params.violationPolicy = .halt ∧ (1#16).toNat = (0#8).toNat * 256 + s.packet.dataLength.toNat % 256
    ∧ s.parserState = .lengthHigh ∧ (1#16 : Word16) ≠ 0#16 ∧ targetOf s.packet.command = none := by decide
theorem witness_HaltedUntilReset_reset :
    let s := { synced halting with halted := true }
    s.halted = true ∧ ∃ u, exec .reset s = .next u ∧ u.halted = false := ⟨rfl, _, rfl, rfl⟩
theorem witness_BitCellDrivesThenSamples :
    ∀ position ∈ [7#3, 1#3],
      let s := inFrame Params.usual true position 0#8
      s.halted = false ∧ s.sync.initialized = true ∧ s.sync.previousClockLevel = true ∧ s.sync.synchronized = true
      ∧ s.sync.bitPosition ≠ 0#3 := by decide
theorem witness_FrameExchangesOneByte :
    let s := { synced Params.usual with sync := { (synced Params.usual).sync with txStaged := 0xA5#8, txStagedValid := true } }
    s.AtFrameStart ∧ s.Consistent := ⟨⟨rfl, rfl, rfl, rfl, rfl, rfl⟩, staged_consistent _ _⟩
/-- Fifteen levels that complete nothing, and the sixteenth that completes the sync word. -/
theorem witness_FirstSyncWordSynchronizes :
    let ds := [true, false, false, false, true, false, false, false, false, false, true, true, false, false, true]
    (s0 Params.usual).Scanning ∧ (s0 Params.usual).sync.syncShiftRegister = 0#16
    ∧ (∀ k, 1 ≤ k → k ≤ ds.length → lastSixteen (ds.take k) ≠ (s0 Params.usual).params.syncWord)
    ∧ lastSixteen (ds ++ [true]) = (s0 Params.usual).params.syncWord := by
  refine ⟨⟨rfl, rfl, rfl, rfl⟩, rfl, ?_, by decide⟩
  have h : ∀ k ∈ List.range 16, 1 ≤ k → lastSixteen
      ([true, false, false, false, true, false, false, false, false, false, true, true, false, false, true].take k)
      ≠ 0x8833#16 := by decide
  exact fun k h1 h2 => h k (List.mem_range.2 (Nat.lt_succ_of_le h2)) h1
/-- After reset, and after the garbage of vector S4, which forms no earlier match. -/
theorem witness_PreambleSynchronizes :
    ∀ register ∈ [0x0000#16, 0x0005#16],
      (scanning Params.usual true register).Scanning
      ∧ ∀ k, 1 ≤ k → k < 16 →
        BitVec.ofNat 16 (register.toNat * 2 ^ k + Params.usual.syncWord.toNat / 2 ^ (16 - k)) ≠ Params.usual.syncWord := by
  intro register hr
  refine ⟨⟨rfl, rfl, rfl, rfl⟩, fun k h1 h2 => ?_⟩
  simp only [List.mem_cons, List.not_mem_nil, or_false] at hr
  rcases hr with rfl | rfl <;> interval_cases k <;> simp [Params.usual]
theorem witness_TargetlessPacketsEndToEnd :
    (synced keeping).AtPacketStart ∧ (synced keeping).Consistent ∧ (synced keeping).params.wf = true
    ∧ (sent [] 1#16).payload = [] ∧ (synced keeping).params.isCommandCode 0x88#8 = false :=
  ⟨synced_packetStart _, synced_consistent _, by decide, rfl, by decide⟩
/-- No payload, and a payload that fills the buffer (of an instance with three bytes). -/
theorem witness_DataPacketEndToEnd :
    ∀ m ∈ [sent [] 4#16, sent [0x11#8, 0x22#8, 0x33#8] 0x6D#16],
      let s := synced { Params.usual with imageCapacity := 3 }
      s.AtPacketStart ∧ s.Consistent ∧ s.params.wf = true ∧ m.wf = true
      ∧ m.payload.length ≤ s.params.imageCapacity ∧ s.params.payloadExtra = 0 := by
  intro m hm
  refine ⟨synced_packetStart _, synced_consistent _, by decide, ?_⟩
  revert m
  decide
/-- No payload, and a payload that fills the buffer. -/
theorem witness_PrintPacketEndToEnd :
    ∀ m ∈ [sent [] 2#16, sent [0x01#8, 0x13#8, 0xE4#8, 0x40#8] 0x13E#16],
      let s := synced Params.usual
      s.AtPacketStart ∧ s.Consistent ∧ s.params.wf = true ∧ m.wf = true
      ∧ m.payload.length ≤ s.params.settingsCapacity ∧ s.params.payloadExtra = 0 := by
  intro m hm
  refine ⟨synced_packetStart _, synced_consistent _, by decide, ?_⟩
  revert m
  decide
/-- A sub-operation pending. -/
theorem witness_StepKeepsWf :
    let s := { synced Params.usual with inputs := [8#8, 0xA5#8] }
    s.Wf ∧ ∃ u, step s = .next u :=
  ⟨{ (synced_consistent Params.usual).toWf with }, _, rfl⟩
/-- A packet of an external row pending. -/
theorem witness_StepKeepsConsistent :
    let s := { synced Params.usual with inputs := 3#8 :: at1000 }
    s.Consistent ∧ (∀ i rest, decode s.params s.inputs = .ok (i, rest) → i.external = true) ∧ ∃ u, step s = .next u := by
  refine ⟨{ synced_consistent Params.usual with
    preSync := fun h => by cases h
    collecting := fun h => by cases h }, fun i rest h => ?_, _, rfl⟩
  have hd : decode Params.usual (3#8 :: at1000) = .ok (.poll 1000#64, []) := by decide
  have h2 : Except.ok (i, rest) = (Except.ok (.poll 1000#64, []) : Except DecodeError (Instr × List Byte)) :=
    h.symm.trans hd
  injection h2 with h3
  injection h3 with h4 _
  rw [h4]
  rfl
theorem witness_OperationsReturnNormally :
    (synced Params.usual).Consistent ∧ Instr.external (.frame 0xA5#8 0#64) = true := ⟨synced_consistent _, rfl⟩
theorem witness_ReadyFlagClearedOnlyByConsumer :
    ∀ i ∈ [Instr.clearReady, .reset], ∃ u, exec i { synced Params.usual with readyFlag := true } = .next u
      ∧ u.readyFlag = false := by
  intro i hi
  simp only [List.mem_cons, List.not_mem_nil, or_false] at hi
  rcases hi with rfl | rfl <;> exact ⟨_, rfl, rfl⟩
theorem witness_OnlyResetClears :
    let s := { synced halting with
      violationFlag := true, violationCause := .bufferOverrun, halted := true,
      sync := { (synced halting).sync with dataOut := .level false } }
    (∃ u, exec .sessionResync s = .next u) ∧ s.sync.initialized = true ∧ s.violationFlag = true
    ∧ s.violationCause ≠ .none ∧ s.halted = true ∧ s.sync.dataOut ≠ .undriven :=
  ⟨⟨_, rfl⟩, rfl, rfl, by decide, rfl, by decide⟩
theorem witness_ParametersNeverChange : ∃ u, exec (.poll 0#64) State.reset = .next u := ⟨_, rfl⟩
/-- The last byte that fits, at offset 3 of `settings_buffer`, which held another value. -/
theorem witness_EdgeWritesOnlyThePayloadByte :
    let s := { inFrame Params.usual false 0#3 0x32#8 with
      parserState := .payload, packet := regs .print 4#16 (some .settings) 3#17 0#16 0#16, settingsBuffer := [(3, 7#8)] }
    ∃ u, exec (.edge true true 0#64) s = .next u ∧ u.memRead .settings 3 ≠ s.memRead .settings 3 :=
  ⟨_, rfl, by decide⟩
theorem witness_OtherRowsWriteNoBufferByte : ∃ u, exec (.slotLengthHigh 1#8) (synced Params.usual) = .next u := ⟨_, rfl⟩
theorem witness_LineDrivenOnlyByFallingEdge :
    ∃ u, exec (.edge false true 0#64) (synced Params.usual) = .next u
      ∧ u.sync.dataOut ≠ (synced Params.usual).sync.dataOut := ⟨_, rfl, by decide⟩
/-- The entry of `STATUS`, and a violation in each of the two states that can raise one. -/
theorem witness_PrinterStatusWrittenByParser :
    ∀ x ∈ [(ParserState.deviceId, regs .print 0#16 none 0#17 2#16 2#16),
        (ParserState.lengthHigh, regs .init 1#16 none 0#17 0#16 0#16),
        (ParserState.payload, regs .print 5#16 (some .settings) 4#17 0#16 0#16)],
      after (.edge true false 0#64) { inFrame Params.usual false 0#3 0#8 with parserState := x.1, packet := x.2 }
        (fun u => decide (u.printer ≠ PrinterStatus.reset)) = some true := by decide
theorem witness_EdgeAndPollOrdersDiffer :
    let s := lastBitOfCompression
    s.Consistent ∧ s.halted = false ∧ s.sync.initialized = true ∧ s.sync.previousClockLevel = false
    ∧ s.sync.synchronized = true ∧ s.sync.bitPosition = 0#3 ∧ s.parserState ≠ .command
    ∧ s.timeoutDeadline.toNat < (1101#64).toNat ∧ (1101#64).toNat + s.params.timeoutWindow.toNat < 2 ^ 64 :=
  ⟨lastBitOfCompression_consistent, by decide⟩

end Sys2Proof.Tests
end

/-!
PROOFS. The statements on the instantiation of the core (00_scope.md): the constraints that it meets (rule R7), and that no
operation changes the parameters (rule R6) or the tape of inputs (notes/assumptions/5.md).
-/
namespace Sys2Proof

/-- The constraints of rule R7 and the range of `IMAGE_BUFFER_CAPACITY` (rule R6) as propositions. -/
theorem Params.wf_iff (p : Params) :
    p.wf = true ↔
      [p.cmdInit, p.cmdPrint, p.cmdData, p.cmdInquiry].Nodup
      ∧ [p.bitChecksumError, p.bitPrinterBusy, p.bitPrintBufferFull, p.bitUnprocessedData].Nodup
      ∧ 1 ≤ p.imageCapacity ∧ p.imageCapacity ≤ 65535 := by
  simp only [Params.wf, Params.codesDistinct, Params.bitsDistinct, Bool.and_eq_true, decide_eq_true_eq, and_assoc]

end Sys2Proof

namespace Sys2Proof.Machine

/-! ### A refused instantiation -/

/-- `step` refuses an instantiation that rule R7 does not admit, whatever input is pending. -/
theorem step_of_not_wf {s : State} (h : ¬ s.params.wf = true) : step s = .refused .instantiation :=
  if_pos (Bool.eq_false_of_not_eq_true h)

/-- Settles O5: two equal codes, or two equal bit positions, each break one part of `Params.wf`. -/
theorem coincidingConstantsRefused : Obligations.CoincidingConstantsRefused := by
  intro s hequal
  refine step_of_not_wf fun hwf => ?_
  obtain ⟨hcodes, hbits, -, -⟩ := s.params.wf_iff.1 hwf
  cases hequal with
  | inl hcode => exact hcode hcodes
  | inr hbit => exact hbit hbits

/-! ### The instantiation and the tape

`u` is of the same instantiation as `s`, with the same tape, when both fields that belong to no operation agree. Each shared part of the model keeps them;
the parts that only assign other fields do so by computation. -/

/-- The parameters and the inputs pending are those of `s`. -/
structure State.SameInstance (s u : State) : Prop where
  params : u.params = s.params
  inputs : u.inputs = s.inputs

section SameInstance

variable {s u v : State} {b : Byte} {c d : Level} {t : Instant}

theorem State.SameInstance.trans (h : s.SameInstance u) (k : u.SameInstance v) : s.SameInstance v :=
  ⟨k.params.trans h.params, k.inputs.trans h.inputs⟩

/-- What is kept from the start of an operation is kept from the state before it. -/
theorem State.SameInstance.of_start (h : s.start.SameInstance u) : s.SameInstance u := ⟨h.params, h.inputs⟩

theorem raiseViolation_sameInstance (s : State) (cause : ViolationCause) :
    s.SameInstance (s.raiseViolation cause) := by
  obtain ⟨-, heq⟩ | ⟨-, heq⟩ := raiseViolation_cases s cause <;> (rw [heq]; exact ⟨rfl, rfl⟩)

theorem applyLengthPolicy_sameInstance (s : State) : s.SameInstance (applyLengthPolicy s) := by
  obtain ⟨-, heq⟩ | ⟨-, -, heq⟩ | ⟨tag, -, -, heq⟩ := applyLengthPolicy_cases s
  · rw [heq]; exact ⟨rfl, rfl⟩
  · rw [heq]; exact raiseViolation_sameInstance s _
  · rw [heq]; exact ⟨rfl, rfl⟩

theorem consumeLengthHigh_sameInstance (b : Byte) (s : State) : s.SameInstance (consumeLengthHigh b s).1 :=
  have hstore : s.SameInstance (storeLengthHigh b s) := ⟨rfl, rfl⟩
  hstore.trans (applyLengthPolicy_sameInstance _)

theorem storePayload_sameInstance (tag : BufferTag) (b : Byte) (s : State) :
    s.SameInstance (storePayload tag b s) :=
  ⟨s.memWrite_params tag _ b, s.memWrite_inputs tag _ b⟩

theorem leavePayload_sameInstance (s : State) : s.SameInstance (leavePayload s) := by
  unfold leavePayload
  split <;> exact ⟨rfl, rfl⟩

theorem consumePayload_sameInstance {r : State × ParserEvent} (h : consumePayload b s = .next r) :
    s.SameInstance r.1 := by
  obtain ⟨-, rfl⟩ | ⟨tag, -, -, rfl⟩ := consumePayload_cases h
  · exact raiseViolation_sameInstance s _
  · exact (storePayload_sameInstance tag b s).trans (leavePayload_sameInstance _)

/-- `PARSE` keeps the instantiation and the tape: in each parser state by its own assignments, but for the two states that can
raise a violation. -/
theorem parse_sameInstance {r : State × ParserEvent} (h : parse b t s = .next r) : s.SameInstance r.1 := by
  obtain ⟨-, rfl⟩ | ⟨-, rfl⟩ | ⟨-, rfl⟩ | ⟨-, rfl⟩ | ⟨-, hpayload⟩ | ⟨-, rfl⟩ | ⟨-, rfl⟩ | ⟨-, rfl⟩ | ⟨-, rfl⟩ :=
    parse_cases h
  · exact ⟨rfl, rfl⟩
  · exact ⟨rfl, rfl⟩
  · exact ⟨rfl, rfl⟩
  · exact consumeLengthHigh_sameInstance b s
  · exact consumePayload_sameInstance hpayload
  · exact ⟨rfl, rfl⟩
  · exact ⟨rfl, rfl⟩
  · exact ⟨rfl, rfl⟩
  · exact ⟨rfl, rfl⟩

theorem packetReady_sameInstance (s : State) : s.SameInstance (packetReady s) := by
  obtain ⟨-, heq⟩ | ⟨-, heq⟩ := packetReady_cases s <;> (rw [heq]; exact ⟨rfl, rfl⟩)

theorem dispatchEvent_sameInstance (r : State × ParserEvent) : r.1.SameInstance (dispatchEvent r) := by
  obtain ⟨-, heq⟩ | ⟨x, -, heq⟩ | ⟨-, heq⟩ := dispatchEvent_cases r
  · rw [heq]; exact ⟨rfl, rfl⟩
  · rw [heq]; exact ⟨rfl, rfl⟩
  · rw [heq]; exact packetReady_sameInstance r.1

/-- `BYTE` keeps the instantiation and the tape: `PARSE`, the dispatch and the deadline each do. -/
theorem completeByte_sameInstance (h : completeByte b t s = .next u) : s.SameInstance u := by
  obtain ⟨r, hparse, rfl⟩ := completeByte_cases h
  have hdeadline : (dispatchEvent r).SameInstance (pushDeadline t (dispatchEvent r)) := ⟨rfl, rfl⟩
  exact (parse_sameInstance hparse).trans ((dispatchEvent_sameInstance r).trans hdeadline)

theorem checkPrint_sameInstance (t : Instant) (s : State) : s.SameInstance (checkPrint t s) := by
  obtain ⟨-, heq⟩ | ⟨-, heq⟩ := checkPrint_cases t s <;> (rw [heq]; exact ⟨rfl, rfl⟩)

theorem checkTimeout_sameInstance (t : Instant) (s : State) : s.SameInstance (checkTimeout t s) := by
  obtain ⟨-, heq⟩ | ⟨-, heq⟩ := checkTimeout_cases t s <;> (rw [heq]; exact ⟨rfl, rfl⟩)

theorem preambleScan_sameInstance (d : Level) (s : State) : s.SameInstance (preambleScan d s) := by
  unfold preambleScan
  split <;> exact ⟨rfl, rfl⟩

theorem receiveBit_sameInstance (h : receiveBit d t s = .next u) : s.SameInstance u := by
  obtain ⟨-, hbyte⟩ | ⟨-, rfl⟩ := receiveBit_cases h
  · have hframe : s.SameInstance (beginFrame s) := ⟨rfl, rfl⟩
    exact hframe.trans (completeByte_sameInstance hbyte)
  · exact ⟨rfl, rfl⟩

/-- `EDGE` keeps the instantiation and the tape, in every case of rule R110. -/
theorem edge_sameInstance (h : edge c d t s = .next u) : s.SameInstance u := by
  have hlevel : s.SameInstance (recordLevel c s) := ⟨rfl, rfl⟩
  obtain ⟨-, rfl⟩ | ⟨-, -, rfl⟩ | ⟨-, -, -, rfl⟩ | ⟨-, -, -, hacts⟩ := edge_cases h
  · exact ⟨rfl, rfl⟩
  · exact ⟨rfl, rfl⟩
  · exact ⟨rfl, rfl⟩
  · obtain ⟨-, -, rfl⟩ | ⟨-, -, hreceive⟩ | ⟨-, -, rfl⟩ | ⟨-, -, rfl⟩ := hacts
    · exact hlevel.trans (preambleScan_sameInstance d _)
    · exact hlevel.trans (receiveBit_sameInstance hreceive)
    · exact ⟨rfl, rfl⟩
    · exact hlevel

theorem edges_sameInstance {es : List (Level × Level)} (h : edges es t s = .next u) : s.SameInstance u :=
  edges_keep s.SameInstance (fun _ _ _ _ _ hs hedge => hs.trans (edge_sameInstance hedge)) es t s u ⟨rfl, rfl⟩ h

/-! ### The rows that can answer in more than one way -/

theorem execPoll_sameInstance (h : execPoll t s = .next u) : s.SameInstance u := by
  unfold execPoll at h
  split at h
  · cases h; exact ⟨rfl, rfl⟩
  · cases h; exact ((checkPrint_sameInstance t s.start).trans (checkTimeout_sameInstance t _)).of_start

theorem execClearReady_sameInstance (h : execClearReady s = .next u) : s.SameInstance u := by
  unfold execClearReady at h
  split at h <;> cases h <;> exact ⟨rfl, rfl⟩

theorem execParse_sameInstance (h : execParse b t s = .next u) : s.SameInstance u := by
  obtain ⟨r, hparse, hanswer⟩ := andThen_eq_next h
  cases hanswer
  have hr : s.SameInstance r.1 := (parse_sameInstance hparse).of_start
  exact hr.trans ⟨rfl, rfl⟩

theorem execSlotPayload_sameInstance (h : execSlotPayload b s = .next u) : s.SameInstance u := by
  obtain ⟨r, hpayload, hanswer⟩ := andThen_eq_next h
  cases hanswer
  have hr : s.SameInstance r.1 := (consumePayload_sameInstance hpayload).of_start
  exact hr.trans ⟨rfl, rfl⟩

theorem execSlotLengthHigh_sameInstance (h : execSlotLengthHigh b s = .next u) : s.SameInstance u := by
  cases h
  have hr : s.SameInstance (consumeLengthHigh b s.start).1 := (consumeLengthHigh_sameInstance b s.start).of_start
  exact hr.trans ⟨rfl, rfl⟩

/-- Every row keeps the instantiation and the tape: the rows that are sequences of edges by the law of `EDGE`, those that can
answer in more than one way by the laws above, and the rest by their own assignments. -/
theorem exec_sameInstance {i : Instr} (h : exec i s = .next u) : s.SameInstance u := by
  cases i with
  | edge c d t => exact (edge_sameInstance h).of_start
  | bitcell d t => exact (edges_sameInstance h).of_start
  | frame b t => exact (edges_sameInstance h).of_start
  | preamble t => exact (edges_sameInstance h).of_start
  | init m => exact (edges_sameInstance h).of_start
  | print m => exact (edges_sameInstance h).of_start
  | data m => exact (edges_sameInstance h).of_start
  | inquiry m => exact (edges_sameInstance h).of_start
  | unknown b m => exact (edges_sameInstance h).of_start
  | poll t => exact execPoll_sameInstance h
  | clearReady => exact execClearReady_sameInstance h
  | byte b t => exact (completeByte_sameInstance h).of_start
  | parse b t => exact execParse_sameInstance h
  | slotPayload b => exact execSlotPayload_sameInstance h
  | slotLengthHigh b => exact execSlotLengthHigh_sameInstance h
  | reset | isReady | getImage | getLastCommand | stage | sessionResync | slotCommand | slotCompression | slotLengthLow
  | slotChecksumLow | slotChecksumHigh | slotDeviceId | slotStatus | statusByte => cases h; exact ⟨rfl, rfl⟩

end SameInstance

/-- Settles O55, by the law of every row. -/
theorem parametersNeverChange : Obligations.ParametersNeverChange := by
  intro s u i h
  exact ⟨(exec_sameInstance h).params, (exec_sameInstance h).inputs⟩

end Sys2Proof.Machine

/-!
PROOFS. The statements on the state of the core (10_state.md): what every step keeps (rule R24, R32, R33, R38, R43, R44, R49, R50,
R73), and who writes `previous_clock_level` (rule R22), the output line (rule R31), PrinterStatus (rule R45) and `ready_flag`
(rule R46).

First, once: what a row, a byte and a byte slot can do. Then the two invariants, and the statements on single elements.
-/
namespace Sys2Proof.Machine

section RowsAndSlots

variable {s u : State} {b : Byte} {c d : Level} {t : Instant} {i : Instr} {ps : ParserState} {r : State × ParserEvent}

/-! ### The byte slots

`PARSE` and the nine slot rows run the same nine functions; `PARSE` chooses the one of the parser state, a slot row the one of its
name (notes/assumptions/9.md). What holds of `consume` for every `ps` holds of them all. -/

/-- The function of the parser state `ps`, run in any state. -/
def consume (ps : ParserState) (b : Byte) (t : Instant) (s : State) : Parsed :=
  match ps with
  | .command => .next (consumeCommand b s)
  | .compression => .next (consumeCompression b s)
  | .lengthLow => .next (consumeLengthLow b s)
  | .lengthHigh => .next (consumeLengthHigh b s)
  | .payload => consumePayload b s
  | .checksumLow => .next (consumeChecksumLow b s)
  | .checksumHigh => .next (consumeChecksumHigh b s)
  | .deviceId => .next (consumeDeviceId b t s)
  | .status => .next (consumeStatus b s)
  | .packetReceived => .fault .restingPacketReceived

/-- `PARSE` is the slot of its parser state (rule R140). -/
theorem parse_eq_consume (b : Byte) (t : Instant) (s : State) : parse b t s = consume s.parserState b t s := by
  unfold parse consume
  cases s.parserState <;> rfl

/-- What a slot that raises no violation leaves alone: the streamer, `ready_flag`, and, but for the entry of `STATUS`,
PrinterStatus. -/
structure State.SlotFrame (ps : ParserState) (s u : State) : Prop where
  sync : u.sync = s.sync
  readyFlag : u.readyFlag = s.readyFlag
  printer : ps ≠ .deviceId → u.printer = s.printer

theorem leavePayload_storePayload_frame (tag : BufferTag) (b : Byte) (s : State) :
    s.SlotFrame ps (leavePayload (storePayload tag b s)) := by
  unfold leavePayload
  split <;> exact ⟨s.memWrite_sync tag _ b, s.memWrite_readyFlag tag _ b, fun _ => s.memWrite_printer tag _ b⟩

/-- A slot keeps its frame, or it raises a violation at the end of the length field or of the buffer. -/
theorem consume_cases (h : consume ps b t s = .next r) :
    s.SlotFrame ps r.1
    ∨ ((ps = .lengthHigh ∨ ps = .payload) ∧ ∃ v cause, s.SlotFrame ps v ∧ r = (v.raiseViolation cause, .none)) := by
  cases ps with
  | lengthHigh =>
    cases h
    have hstore : s.SlotFrame .lengthHigh (storeLengthHigh b s) := ⟨rfl, rfl, fun _ => rfl⟩
    unfold consumeLengthHigh
    obtain ⟨-, heq⟩ | ⟨-, -, heq⟩ | ⟨tag, -, -, heq⟩ := applyLengthPolicy_cases (storeLengthHigh b s) <;> rw [heq]
    · exact .inl ⟨rfl, rfl, fun _ => rfl⟩
    · exact .inr ⟨.inl rfl, _, _, hstore, rfl⟩
    · exact .inl ⟨rfl, rfl, fun _ => rfl⟩
  | payload =>
    obtain ⟨-, rfl⟩ | ⟨tag, -, -, rfl⟩ := consumePayload_cases h
    · exact .inr ⟨.inr rfl, s, _, ⟨rfl, rfl, fun _ => rfl⟩, rfl⟩
    · exact .inl (leavePayload_storePayload_frame tag b s)
  | packetReceived => cases h
  | deviceId => cases h; exact .inl ⟨rfl, rfl, fun hps => absurd rfl hps⟩
  | command | compression | lengthLow | checksumLow | checksumHigh | status =>
    cases h; exact .inl ⟨rfl, rfl, fun _ => rfl⟩

/-! ### What a violation and the dispatch of `PARSE`'s event leave alone -/

@[simp] theorem State.raiseViolation_readyFlag (s : State) (cause : ViolationCause) :
    (s.raiseViolation cause).readyFlag = s.readyFlag := by
  obtain ⟨-, heq⟩ | ⟨-, heq⟩ := raiseViolation_cases s cause <;> (rw [heq]; rfl)

@[simp] theorem State.raiseViolation_printer (s : State) (cause : ViolationCause) :
    (s.raiseViolation cause).printer = { s.printer with checksumError := true } := by
  obtain ⟨-, heq⟩ | ⟨-, heq⟩ := raiseViolation_cases s cause <;> (rw [heq]; rfl)

@[simp] theorem State.raiseViolation_violationFlag (s : State) (cause : ViolationCause) :
    (s.raiseViolation cause).violationFlag = true := by
  obtain ⟨-, heq⟩ | ⟨-, heq⟩ := raiseViolation_cases s cause <;> (rw [heq]; rfl)

@[simp] theorem dispatchEvent_printer (r : State × ParserEvent) : (dispatchEvent r).printer = r.1.printer := by
  obtain ⟨-, heq⟩ | ⟨x, -, heq⟩ | ⟨-, heq⟩ := dispatchEvent_cases r <;> rw [heq]
  · rfl
  · obtain ⟨-, heq⟩ | ⟨-, heq⟩ := packetReady_cases r.1 <;> (rw [heq]; rfl)

@[simp] theorem dispatchEvent_violationFlag (r : State × ParserEvent) :
    (dispatchEvent r).violationFlag = r.1.violationFlag := by
  obtain ⟨-, heq⟩ | ⟨x, -, heq⟩ | ⟨-, heq⟩ := dispatchEvent_cases r <;> rw [heq]
  · rfl
  · obtain ⟨-, heq⟩ | ⟨-, heq⟩ := packetReady_cases r.1 <;> (rw [heq]; rfl)

/-- The dispatch may set `ready_flag` (rule R182) and never clears it. -/
theorem dispatchEvent_readyFlag (h : r.1.readyFlag = true) : (dispatchEvent r).readyFlag = true := by
  obtain ⟨-, heq⟩ | ⟨x, -, heq⟩ | ⟨-, heq⟩ := dispatchEvent_cases r <;> rw [heq]
  · exact h
  · exact h
  · obtain ⟨-, heq⟩ | ⟨-, heq⟩ := packetReady_cases r.1 <;> (rw [heq]; rfl)

/-! ### What a byte can do to the streamer -/

/-- A slot writes nothing of SyncState, or forces the pre-sync values by a violation, and then returns no event. -/
theorem consume_sync (h : consume ps b t s = .next r) :
    r.1.sync = s.sync ∨ (r.2 = .none ∧ r.1.sync = s.sync.preSync ∧ r.1.parserState = .command) := by
  obtain hframe | ⟨-, v, cause, hframe, rfl⟩ := consume_cases h
  · exact .inl hframe.sync
  · obtain ⟨-, heq⟩ | ⟨-, heq⟩ := raiseViolation_cases v cause <;> rw [heq]
    · exact .inr ⟨rfl, congrArg SyncState.preSync hframe.sync, rfl⟩
    · exact .inl hframe.sync

/-- `BYTE` writes no element of SyncState but the staged byte (rule R118), or it forces the pre-sync values (rule R30). -/
theorem completeByte_sync (h : completeByte b t s = .next u) :
    (∃ x valid, u.sync = { s.sync with txStaged := x, txStagedValid := valid })
    ∨ (u.sync = s.sync.preSync ∧ u.parserState = .command) := by
  obtain ⟨r, hparse, rfl⟩ := completeByte_cases h
  rw [parse_eq_consume] at hparse
  simp only [pushDeadline_sync, pushDeadline_parserState]
  obtain hsame | ⟨hnone, hpre, hidle⟩ := consume_sync hparse
  · obtain ⟨-, heq⟩ | ⟨x, -, heq⟩ | ⟨-, heq⟩ := dispatchEvent_cases r <;> rw [heq]
    · exact .inl ⟨_, _, hsame⟩
    · exact .inl ⟨x, true, by rw [State.stageByte_sync, hsame]⟩
    · obtain ⟨-, heq⟩ | ⟨-, heq⟩ := packetReady_cases r.1 <;> rw [heq]
      · exact .inr ⟨congrArg SyncState.preSync hsame, rfl⟩
      · exact .inl ⟨_, _, hsame⟩
  · have heq : dispatchEvent r = r.1 := by simp only [dispatchEvent, hnone]
    rw [heq]
    exact .inr ⟨hpre, hidle⟩

/-! ### What a row can do -/

theorem edges_singleton (c d : Level) (t : Instant) (s : State) : edges [(c, d)] t s = edge c d t s := by
  simp only [edges]
  cases edge c d t s <;> rfl

/-- The next states that the rows of the table can answer. -/
inductive RowOutcome (s : State) : Instr → State → Prop
  | reset : RowOutcome s .reset s.resetAll
  /-- An operation of a halted core (rule R216). -/
  | halted (i : Instr) (h : s.halted = true) : RowOutcome s i s.start
  | poll (t : Instant) : RowOutcome s (.poll t) (checkTimeout t (checkPrint t s.start))
  | clearReady : RowOutcome s .clearReady { s.start with readyFlag := false }
  | query (i : Instr) (a : Result) : RowOutcome s i (s.start.answer a)
  /-- `EDGE`, and the rows that are sequences of it (rule R82 to rule R86). -/
  | wire (i : Instr) {es : List (Level × Level)} {t : Instant} {u : State} (h : edges es t s.start = .next u) :
      RowOutcome s i u
  | stage (b : Byte) : RowOutcome s (.stage b) (s.start.stageByte b)
  | byte (b : Byte) (t : Instant) {u : State} (h : completeByte b t s.start = .next u) : RowOutcome s (.byte b t) u
  | sessionResync : RowOutcome s .sessionResync s.start.resync
  /-- `PARSE` and the nine slots. -/
  | slot {i : Instr} (ps : ParserState) {b : Byte} {t : Instant} {r : State × ParserEvent} (hi : i.external = false)
      (h : consume ps b t s.start = .next r) : RowOutcome s i (answerEvent r)
  | statusByte (x f y e : Bool) : RowOutcome s (.statusByte x f y e) (answerEvent (produceStatus
      { checksumError := e, unprocessedDataPresent := x, printBufferFull := f, printerBusy := y } s.start))

/-- Every row has one of these outcomes. -/
theorem exec_rowOutcome (h : exec i s = .next u) : RowOutcome s i u := by
  cases i with
  | reset => cases h; exact .reset
  | edge c d t => exact .wire _ ((edges_singleton c d t s.start).trans h)
  | bitcell | frame | preamble | init | print | data | inquiry | unknown => exact .wire _ h
  | poll t =>
    change execPoll t s = _ at h
    unfold execPoll at h
    split at h <;> cases h
    · exact .halted _ ‹_›
    · exact .poll t
  | clearReady =>
    change execClearReady s = _ at h
    unfold execClearReady at h
    split at h <;> cases h
    · exact .halted _ ‹_›
    · exact .clearReady
  | isReady | getImage | getLastCommand => cases h; exact .query _ _
  | stage b => cases h; exact .stage b
  | byte b t => exact .byte b t h
  | sessionResync => cases h; exact .sessionResync
  | parse b t =>
    obtain ⟨r, hparse, hanswer⟩ := andThen_eq_next h
    cases hanswer
    exact .slot s.parserState rfl ((parse_eq_consume b t s.start).symm.trans hparse)
  | slotPayload b =>
    obtain ⟨r, hpayload, hanswer⟩ := andThen_eq_next h
    cases hanswer
    exact .slot .payload (t := 0#64) rfl hpayload
  | slotCommand b => cases h; exact .slot .command (b := b) (t := 0#64) rfl rfl
  | slotCompression b => cases h; exact .slot .compression (b := b) (t := 0#64) rfl rfl
  | slotLengthLow b => cases h; exact .slot .lengthLow (b := b) (t := 0#64) rfl rfl
  | slotLengthHigh b => cases h; exact .slot .lengthHigh (b := b) (t := 0#64) rfl rfl
  | slotChecksumLow b => cases h; exact .slot .checksumLow (b := b) (t := 0#64) rfl rfl
  | slotChecksumHigh b => cases h; exact .slot .checksumHigh (b := b) (t := 0#64) rfl rfl
  | slotDeviceId b t => cases h; exact .slot .deviceId (b := b) (t := t) rfl rfl
  | slotStatus b => cases h; exact .slot .status (b := b) (t := 0#64) rfl rfl
  | statusByte x f y e => cases h; exact .statusByte x f y e

/-- A step is idle, or it runs the first record of the tape. -/
theorem step_cases (h : step s = .next u) :
    u = s ∨ ∃ i after, decode s.params s.inputs = .ok (i, after) ∧ exec i { s with inputs := after } = .next u := by
  unfold step at h
  split at h
  · cases h
  · split at h
    · cases h; exact .inl rfl
    · rename_i htape
      split at h
      · cases h
      · rename_i i after hdecode
        exact .inr ⟨i, after, by rw [htape, hdecode], h⟩

end RowsAndSlots

/-! ### The invariant of every row (rule R33, R44, R49, R50, R73) -/

section KeepsWf

variable {s u : State} {b : Byte} {c d : Level} {t : Instant} {i : Instr} {ps : ParserState} {r : State × ParserEvent}

theorem State.Wf.start (h : s.Wf) : s.start.Wf := { h with }

theorem State.Wf.answer (h : s.Wf) (a : Result) : (s.answer a).Wf := { h with }

theorem State.Wf.stageByte (h : s.Wf) (b : Byte) : (s.stageByte b).Wf := { h with }

theorem State.Wf.pushDeadline (h : s.Wf) (t : Instant) : (pushDeadline t s).Wf := { h with }

theorem State.Wf.recordLevel (h : s.Wf) (c : Level) : (recordLevel c s).Wf := { h with }

theorem State.Wf.resync (h : s.Wf) : s.resync.Wf := { h with notResting := nofun }

theorem State.resetAll_wf (s : State) : s.resetAll.Wf where
  settingsCanonical := rfl
  imageCanonical := rfl
  settingsBounded := nofun
  imageBounded := nofun
  notResting := nofun
  violationRecord := by simp
  busyIsFull := rfl
  busyIsArmed := rfl
  haltedByPolicy := nofun

theorem State.Wf.raiseViolation (h : s.Wf) {cause : ViolationCause} (hcause : cause ≠ .none) :
    (s.raiseViolation cause).Wf := by
  have hrecord : (s.recordViolation cause).Wf :=
    { h with
      violationRecord := iff_of_true rfl hcause
      haltedByPolicy := fun hhalt => ⟨(h.haltedByPolicy hhalt).1, rfl⟩ }
  obtain ⟨-, heq⟩ | ⟨hpolicy, heq⟩ := raiseViolation_cases s cause <;> rw [heq]
  · exact hrecord.resync
  · exact { hrecord with haltedByPolicy := fun _ => ⟨hpolicy, rfl⟩ }

/-- A byte below the capacity (rule R73). -/
theorem State.Wf.memWrite (h : s.Wf) {tag : BufferTag} {off : Nat} (hoff : off < s.params.capacity tag) (v : Byte) :
    (s.memWrite tag off v).Wf := by
  cases tag with
  | settings => exact { h with
      settingsCanonical := Buffer.wf_write _ off v h.settingsCanonical
      settingsBounded := Buffer.inBounds_write v h.settingsBounded hoff }
  | image => exact { h with
      imageCanonical := Buffer.wf_write _ off v h.imageCanonical
      imageBounded := Buffer.inBounds_write v h.imageBounded hoff }

theorem State.Wf.applyLengthPolicy (h : s.Wf) : (applyLengthPolicy s).Wf := by
  obtain ⟨-, heq⟩ | ⟨-, -, heq⟩ | ⟨tag, -, -, heq⟩ := applyLengthPolicy_cases s <;> rw [heq]
  · exact { h with notResting := nofun }
  · exact h.raiseViolation nofun
  · exact { h with notResting := nofun }

theorem State.Wf.consumePayload (h : s.Wf) (hr : consumePayload b s = .next r) : r.1.Wf := by
  obtain ⟨-, rfl⟩ | ⟨tag, -, hcap, rfl⟩ := consumePayload_cases hr
  · exact h.raiseViolation nofun
  · have hwrite := h.memWrite hcap b
    have hstore : (storePayload tag b s).Wf := { hwrite with }
    unfold leavePayload
    split
    · exact { hstore with notResting := nofun }
    · exact hstore

/-- The entry of `STATUS` writes `printer_busy` and `print_buffer_full` alike (rule R154). -/
theorem statusEntryFlags_busy (k : Packet) {f : PrinterStatus} (h : f.printerBusy = f.printBufferFull) :
    (statusEntryFlags k f).printerBusy = (statusEntryFlags k f).printBufferFull := by
  unfold statusEntryFlags
  cases k.command with
  | print => rfl
  | init | data | inquiry | unknown => exact h

/-- The entry of `STATUS` arms the pretend print exactly when it sets `printer_busy` (rule R154). -/
theorem statusEntryFlags_armed (p : Params) (k : Packet) (t : Instant) {f : PrinterStatus} {limit : Option Instant}
    (h : f.printerBusy = limit.isSome) :
    (statusEntryFlags k f).printerBusy = (statusEntryDeadline p k.command t limit).isSome := by
  unfold statusEntryFlags statusEntryDeadline
  cases k.command with
  | print => rfl
  | init | data | inquiry | unknown => exact h

theorem State.Wf.consumeDeviceId (h : s.Wf) (b : Byte) (t : Instant) : (consumeDeviceId b t s).1.Wf :=
  { h with
    notResting := nofun
    busyIsFull := statusEntryFlags_busy s.packet h.busyIsFull
    busyIsArmed := statusEntryFlags_armed s.params s.packet t h.busyIsArmed }

/-- Every slot keeps the invariant, in whatever state it is called. -/
theorem State.Wf.consume (h : s.Wf) (hr : consume ps b t s = .next r) : r.1.Wf := by
  cases ps with
  | lengthHigh =>
    cases hr
    have hstore : (storeLengthHigh b s).Wf := { h with }
    exact hstore.applyLengthPolicy
  | payload => exact h.consumePayload hr
  | deviceId => cases hr; exact h.consumeDeviceId b t
  | packetReceived => cases hr
  | command | compression | lengthLow | checksumLow | checksumHigh | status =>
    cases hr; exact { h with notResting := nofun }

theorem State.Wf.dispatchEvent (h : r.1.Wf) : (dispatchEvent r).Wf := by
  obtain ⟨-, heq⟩ | ⟨x, -, heq⟩ | ⟨-, heq⟩ := dispatchEvent_cases r <;> rw [heq]
  · exact h
  · exact h.stageByte x
  · have hready : State.Wf ({ r.1 with readyFlag := true }.emit .packetReady) := { h with }
    obtain ⟨-, heq⟩ | ⟨-, heq⟩ := packetReady_cases r.1 <;> rw [heq]
    · exact hready.resync
    · exact hready

theorem State.Wf.completeByte (h : s.Wf) (hbyte : completeByte b t s = .next u) : u.Wf := by
  obtain ⟨r, hparse, rfl⟩ := completeByte_cases hbyte
  rw [parse_eq_consume] at hparse
  exact (h.consume hparse).dispatchEvent.pushDeadline t

theorem State.Wf.edge (h : s.Wf) (hedge : edge c d t s = .next u) : u.Wf := by
  obtain ⟨-, rfl⟩ | ⟨-, -, rfl⟩ | ⟨-, -, -, rfl⟩ | ⟨-, -, -, hacts⟩ := edge_cases hedge
  · exact h
  · exact { h with }
  · exact h
  · have hlevel := h.recordLevel c
    obtain ⟨-, -, rfl⟩ | ⟨-, -, hreceive⟩ | ⟨-, -, rfl⟩ | ⟨-, -, rfl⟩ := hacts
    · unfold preambleScan
      split <;> exact { hlevel with }
    · obtain ⟨-, hbyte⟩ | ⟨-, rfl⟩ := receiveBit_cases hreceive
      · have hframe : (beginFrame (Machine.recordLevel c s)).Wf := { hlevel with }
        exact hframe.completeByte hbyte
      · exact { hlevel with }
    · exact { hlevel with }
    · exact hlevel

theorem State.Wf.edges (h : s.Wf) {es : List (Level × Level)} (hedges : edges es t s = .next u) : u.Wf :=
  edges_keep State.Wf (fun _ _ _ _ _ hs hedge => hs.edge hedge) es t s u h hedges

theorem State.Wf.checkPrint (h : s.Wf) (t : Instant) : (checkPrint t s).Wf := by
  obtain ⟨-, heq⟩ | ⟨-, heq⟩ := checkPrint_cases t s <;> rw [heq]
  · exact { h with busyIsFull := rfl, busyIsArmed := rfl }
  · exact h

theorem State.Wf.checkTimeout (h : s.Wf) (t : Instant) : (checkTimeout t s).Wf := by
  obtain ⟨-, heq⟩ | ⟨-, heq⟩ := checkTimeout_cases t s <;> rw [heq]
  · have hresync := h.resync
    exact { hresync with }
  · exact h

/-- Every row keeps the invariant, a sub-operation called on its own included. -/
theorem State.Wf.exec (h : s.Wf) (hexec : exec i s = .next u) : u.Wf := by
  cases exec_rowOutcome hexec with
  | reset => exact s.resetAll_wf
  | halted => exact h.start
  | poll t => exact (h.start.checkPrint t).checkTimeout t
  | clearReady => exact { h with }
  | query _ a => exact h.start.answer a
  | wire _ hedges => exact h.start.edges hedges
  | stage b => exact h.start.stageByte b
  | byte b t hbyte => exact h.start.completeByte hbyte
  | sessionResync => exact h.start.resync
  | slot ps _ hslot => exact (h.start.consume hslot).answer _
  | statusByte => exact { h with }

end KeepsWf

/-- Settles O50: an idle step by itself, any other by the row that it runs. -/
theorem stepKeepsWf : Obligations.StepKeepsWf := by
  intro s u h hstep
  obtain rfl | ⟨i, after, -, hexec⟩ := step_cases hstep
  · exact h
  · have htape : State.Wf { s with inputs := after } := { h with }
    exact htape.exec hexec

end Sys2Proof.Machine

namespace Sys2Proof.Machine

/-! ### The invariants of the operations (rule R24, R32, R33, R38, R43)

What `State.Consistent` adds to `State.Wf` falls into the streamer's part and the parser's part. An `EDGE` that completes no byte
writes only SyncState, and a byte reaches SyncState only as `completeByte_sync` says, so the two parts are kept one by one. -/

/-- The streamer's part: rule R24, rule R32, rule R111, rule R118. -/
structure State.StreamerInv (s : State) : Prop where
  preSync : s.sync.synchronized = false → s.PreSync
  unreceived : ∀ k ≤ s.sync.bitPosition.toNat, s.sync.rxAccumulator.getLsbD k = false
  syncWordHeld : s.sync.synchronized = true → s.sync.syncShiftRegister = s.params.syncWord
  firstCall : s.sync.initialized = false → s.sync.synchronized = false
  staged : s.sync.txStagedValid = true → s.sync.bitPosition = 7#3 ∧ s.sync.previousClockLevel = true

/-- The parser's part: rule R38, rule R43, rule R145, rule R148. -/
structure State.ParserInv (s : State) : Prop where
  lengthLowFirst : s.parserState = .lengthLow → s.packet.dataLength = 0#16
  lengthHighNext : s.parserState = .lengthHigh → s.halted = false → highByte s.packet.dataLength = 0#8
  collecting : s.parserState = .payload → ∃ tag, s.Collecting tag
  lengthNeedsTarget : s.parserState.afterLength = true → s.packet.dataLength ≠ 0#16 → targetOf s.packet.command ≠ none
  indexRange : s.packet.payloadIndex.toNat ≤ 65536

theorem State.consistent_iff (s : State) : s.Consistent ↔ s.Wf ∧ s.StreamerInv ∧ s.ParserInv :=
  ⟨fun h => ⟨h.toWf, { h with }, { h with }⟩, fun ⟨hwf, hstreamer, hparser⟩ => { hwf, hstreamer, hparser with }⟩

section StreamerPart

variable {s u : State} {b : Byte} {c d : Level} {t : Instant}

/-- A state with the pre-sync values meets the streamer's part. -/
theorem State.StreamerInv.of_preSync (hsync : s.sync.synchronized = false) (hpre : s.PreSync) : s.StreamerInv where
  preSync _ := hpre
  unreceived k _ := by rw [hpre.accumulator, BitVec.getLsbD_zero]
  syncWordHeld h := by simp [hsync] at h
  firstCall _ := hsync
  staged h := by simp [hpre.nothingStaged] at h

/-- Only SyncState, the parser's progress and the parameters matter. -/
theorem State.StreamerInv.congr (h : s.StreamerInv) (hsync : u.sync = s.sync)
    (hidle : s.parserState = .command → u.parserState = .command) (hparams : u.params = s.params) : u.StreamerInv where
  preSync hu := by
    obtain ⟨hposition, haccumulator, hactive, hstaged, hcommand⟩ := h.preSync (hsync ▸ hu)
    exact ⟨hsync ▸ hposition, hsync ▸ haccumulator, hsync ▸ hactive, hsync ▸ hstaged, hidle hcommand⟩
  unreceived := hsync ▸ h.unreceived
  syncWordHeld := by rw [hsync, hparams]; exact h.syncWordHeld
  firstCall := hsync ▸ h.firstCall
  staged := hsync ▸ h.staged

/-- The forced resynchronisation gives the pre-sync values (rule R30, rule R186). -/
theorem State.StreamerInv.of_resynced {y : SyncState} (hsync : u.sync = y.preSync) (hidle : u.parserState = .command) :
    u.StreamerInv :=
  .of_preSync (by rw [hsync]; rfl)
    ⟨by rw [hsync]; rfl, by rw [hsync]; rfl, by rw [hsync]; rfl, by rw [hsync]; rfl, hidle⟩

/-- A rising edge while not synchronized (rule R113). -/
theorem State.StreamerInv.preambleScan (h : s.StreamerInv) (hsync : s.sync.synchronized = false)
    (hinit : s.sync.initialized = true) (d : Level) : (preambleScan d s).StreamerInv := by
  have hpre := h.preSync hsync
  unfold Machine.preambleScan
  split
  · rename_i hword
    exact
      { preSync := nofun
        unreceived := fun k _ => by simp [hpre.accumulator]
        syncWordHeld := fun _ => hword
        firstCall := fun hfirst => by simp [hinit] at hfirst
        staged := fun hstaged => by simp [hpre.nothingStaged] at hstaged }
  · exact .of_preSync hsync { hpre with }

/-- A synchronized bit cell before the last: the position moves below the bit just merged (rule R114). -/
theorem unreceived_mergeBit {y : SyncState} (h : ∀ k ≤ y.bitPosition.toNat, y.rxAccumulator.getLsbD k = false)
    (hposition : y.bitPosition ≠ 0#3) (d : Level) (k : Nat) (hk : k ≤ (y.bitPosition - 1#3).toNat) :
    (mergeBit y.rxAccumulator y.bitPosition d).getLsbD k = false := by
  have hlower : (y.bitPosition - 1#3).toNat < y.bitPosition.toNat := by bv_omega
  rw [mergeBit_getLsbD, h k (by omega)]
  simp [show k ≠ y.bitPosition.toNat by omega]

/-- A byte is completed (rule R115): the frame begins anew, and what the parser returns is staged for it. -/
theorem State.StreamerInv.completeByte (h : s.StreamerInv) (hsync : s.sync.synchronized = true)
    (hposition : s.sync.bitPosition = 7#3) (hclock : s.sync.previousClockLevel = true)
    (hbyte : completeByte b t s = .next u) : u.StreamerInv := by
  have hparams := (completeByte_sameInstance hbyte).params
  have hword := h.syncWordHeld hsync
  obtain ⟨x, valid, heq⟩ | ⟨heq, hidle⟩ := completeByte_sync hbyte
  · exact
      { preSync := fun hu => by simp [heq, hsync] at hu
        unreceived := by rw [heq]; exact h.unreceived
        syncWordHeld := fun _ => by rw [heq, hparams]; exact hword
        firstCall := by rw [heq]; exact h.firstCall
        staged := fun _ => by rw [heq]; exact ⟨hposition, hclock⟩ }
  · exact .of_resynced heq hidle

/-- A rising edge while synchronized (rule R114, rule R115). -/
theorem State.StreamerInv.receiveBit (h : s.StreamerInv) (hsync : s.sync.synchronized = true)
    (hclock : s.sync.previousClockLevel = true) (hstaged : s.sync.txStagedValid = false)
    (hreceive : receiveBit d t s = .next u) : u.StreamerInv := by
  obtain ⟨-, hbyte⟩ | ⟨hposition, rfl⟩ := receiveBit_cases hreceive
  · have hframe : (beginFrame s).StreamerInv :=
      { preSync := fun hu => by simp [beginFrame, hsync] at hu
        unreceived := fun k _ => BitVec.getLsbD_zero
        syncWordHeld := h.syncWordHeld
        firstCall := h.firstCall
        staged := fun _ => ⟨rfl, hclock⟩ }
    exact hframe.completeByte hsync rfl hclock hbyte
  · exact
      { preSync := fun hu => by simp [hsync] at hu
        unreceived := unreceived_mergeBit h.unreceived hposition d
        syncWordHeld := h.syncWordHeld
        firstCall := h.firstCall
        staged := fun hu => by simp [hstaged] at hu }

/-- A falling edge while synchronized (rule R116): a byte that was staged is loaded, for the position is then 7. -/
theorem State.StreamerInv.transmitBit (h : s.StreamerInv) (hsync : s.sync.synchronized = true) (c : Level) :
    (transmitBit (recordLevel c s)).StreamerInv where
  preSync hu := by simp [hsync] at hu
  unreceived := h.unreceived
  syncWordHeld := h.syncWordHeld
  firstCall := h.firstCall
  staged hu := by
    simp only [transmitBit_sync, loadTransmit_txStagedValid] at hu
    split at hu
    · cases hu
    · rename_i hposition
      exact absurd (h.staged hu).1 hposition

/-- `EDGE` keeps the streamer's part, in every case of rule R110. -/
theorem State.StreamerInv.edge (h : s.StreamerInv) (hedge : edge c d t s = .next u) : u.StreamerInv := by
  obtain ⟨-, rfl⟩ | ⟨-, hfirst, rfl⟩ | ⟨-, -, -, rfl⟩ | ⟨-, hinit, hchange, hacts⟩ := edge_cases hedge
  · exact h
  · have hsync := h.firstCall hfirst
    exact .of_preSync hsync { h.preSync hsync with }
  · exact h
  · obtain ⟨-, hsync, rfl⟩ | ⟨hrise, hsync, hreceive⟩ | ⟨-, hsync, rfl⟩ | ⟨-, hsync, rfl⟩ := hacts
    · have hlevel : (recordLevel c s).StreamerInv := .of_preSync hsync { h.preSync hsync with }
      exact hlevel.preambleScan hsync hinit d
    · have hstaged : s.sync.txStagedValid = false :=
        Bool.eq_false_of_not_eq_true fun hvalid => hchange (hrise.trans (h.staged hvalid).2.symm)
      have hlevel : (recordLevel c s).StreamerInv :=
        { preSync := fun hu => by simp [hsync] at hu
          unreceived := h.unreceived
          syncWordHeld := h.syncWordHeld
          firstCall := h.firstCall
          staged := fun hu => absurd hu (by simp [recordLevel, hstaged]) }
      exact hlevel.receiveBit hsync hrise hstaged hreceive
    · exact h.transmitBit hsync c
    · exact .of_preSync hsync { h.preSync hsync with }

end StreamerPart

section ParserPart

variable {s u : State} {b : Byte} {c d : Level} {t : Instant} {r : State × ParserEvent}

/-- Only Packet, the parser's progress, `halted` and the parameters matter. -/
theorem State.ParserInv.congr (h : s.ParserInv) (hps : u.parserState = s.parserState) (hpacket : u.packet = s.packet)
    (hhalted : u.halted = s.halted) (hparams : u.params = s.params) : u.ParserInv where
  lengthLowFirst := by rw [hps, hpacket]; exact h.lengthLowFirst
  lengthHighNext := by rw [hps, hpacket, hhalted]; exact h.lengthHighNext
  collecting hu := by
    obtain ⟨tag, hcommand, htarget, hnonzero, hincomplete, hbounded⟩ := h.collecting (hps ▸ hu)
    exact ⟨tag, by rwa [hpacket], by rwa [hpacket], by rwa [hpacket], by rwa [hpacket, hparams], by rwa [hpacket, hparams]⟩
  lengthNeedsTarget := by rw [hps, hpacket]; exact h.lengthNeedsTarget
  indexRange := hpacket ▸ h.indexRange

/-- In `COMMAND` and `COMPRESSION` only the range of the index is asked. -/
theorem State.ParserInv.of_header (hps : s.parserState = .command ∨ s.parserState = .compression)
    (hindex : s.packet.payloadIndex.toNat ≤ 65536) : s.ParserInv where
  lengthLowFirst hu := by simp [hu] at hps
  lengthHighNext hu := by simp [hu] at hps
  collecting hu := by simp [hu] at hps
  lengthNeedsTarget hu := by obtain hps | hps := hps <;> simp [hps, ParserState.afterLength] at hu
  indexRange := hindex

/-- After `PAYLOAD` a non-zero length has a target (rule R43). -/
theorem State.ParserInv.of_trailer (hps : s.parserState ∈ [.checksumLow, .checksumHigh, .deviceId, .status])
    (htarget : s.packet.dataLength ≠ 0#16 → targetOf s.packet.command ≠ none)
    (hindex : s.packet.payloadIndex.toNat ≤ 65536) : s.ParserInv where
  lengthLowFirst hu := by simp [hu] at hps
  lengthHighNext hu := by simp [hu] at hps
  collecting hu := by simp [hu] at hps
  lengthNeedsTarget _ := htarget
  indexRange := hindex

/-- The length-field policy on a state that has just stored the high length byte (rule R145). -/
theorem applyLengthPolicy_parserInv (hps : s.parserState = .lengthHigh) (hindex : s.packet.payloadIndex.toNat ≤ 65536) :
    (applyLengthPolicy s).ParserInv := by
  obtain ⟨hzero, heq⟩ | ⟨hnonzero, -, heq⟩ | ⟨tag, hnonzero, htarget, heq⟩ := applyLengthPolicy_cases s <;> rw [heq]
  · exact .of_trailer (by simp [enterChecksumLow]) (fun hne => absurd hzero hne) hindex
  · obtain ⟨-, heq⟩ | ⟨-, heq⟩ := raiseViolation_cases s .noPayloadTarget <;> rw [heq]
    · exact .of_header (.inl rfl) hindex
    · exact
        { lengthLowFirst := fun hu => by cases hps.symm.trans hu
          lengthHighNext := nofun
          collecting := fun hu => by cases hps.symm.trans hu
          lengthNeedsTarget := fun hu => by simp [State.recordViolation, hps, ParserState.afterLength] at hu
          indexRange := hindex }
  · have hlength : 0 < s.packet.dataLength.toNat := by bv_omega
    exact
      { lengthLowFirst := nofun
        lengthHighNext := nofun
        collecting := fun _ => ⟨tag, htarget, htarget, hnonzero, Nat.lt_add_right _ hlength, Nat.zero_le _⟩
        lengthNeedsTarget := fun _ _ => by simp [enterPayload, htarget]
        indexRange := Nat.zero_le _ }

/-- `payload_index` counts without wrapping (rule R159). -/
theorem payloadIndex_succ {k : BitVec 17} (h : k.toNat < 65536) : (k + 1#17).toNat = k.toNat + 1 := by
  bv_omega

/-- The index of a payload byte that is still to come (rule R38). -/
theorem State.Collecting.index_lt {tag : BufferTag} (h : s.Collecting tag) : s.packet.payloadIndex.toNat < 65536 := by
  have hlength := s.packet.dataLength.isLt
  have hextra := s.params.payloadExtra.isLt
  have hincomplete := h.incomplete
  omega

/-- A payload byte that fits (rule R148): collecting goes on, or the payload is complete. -/
theorem State.Collecting.payloadStored {tag : BufferTag} (h : s.Collecting tag) (hps : s.parserState = .payload)
    (hcap : s.packet.payloadIndex.toNat < s.params.capacity tag) (b : Byte) :
    (leavePayload (storePayload tag b s)).ParserInv := by
  have hnext := payloadIndex_succ h.index_lt
  have hindex : (storePayload tag b s).packet.payloadIndex.toNat ≤ 65536 := hnext.trans_le h.index_lt
  have htarget : targetOf s.packet.command ≠ none := by simp [h.byCommand]
  have hparams : (storePayload tag b s).params = s.params := s.memWrite_params tag _ b
  have hstate : (storePayload tag b s).parserState = .payload := (s.memWrite_parserState tag _ b).trans hps
  unfold leavePayload
  split
  · exact .of_trailer (by simp [enterChecksumLow]) (fun _ => htarget) hindex
  · rename_i hmore
    rw [payloadComplete, decide_eq_true_eq, Nat.not_le] at hmore
    exact
      { lengthLowFirst := fun hu => by cases hstate.symm.trans hu
        lengthHighNext := fun hu => by cases hstate.symm.trans hu
        collecting := fun _ => ⟨tag, h.byCommand, h.target, h.nonzero, hmore, by
          rw [hparams]
          exact hnext.trans_le hcap⟩
        lengthNeedsTarget := fun _ _ => htarget
        indexRange := hindex }

/-- A write to the low byte keeps the high byte (rule R144). -/
@[simp] theorem highByte_withLowByte (field : Word16) (b : Byte) : highByte (withLowByte field b) = highByte field := by
  apply BitVec.eq_of_toNat_eq
  have hb := b.isLt
  rw [highByte_toNat, withLowByte_toNat, highByte_toNat]
  omega

/-- `PARSE` keeps the parser's part, in each parser state. -/
theorem State.ParserInv.parse (h : s.ParserInv) (hr : parse b t s = .next r) : r.1.ParserInv := by
  obtain ⟨-, rfl⟩ | ⟨-, rfl⟩ | ⟨hps, rfl⟩ | ⟨hps, rfl⟩ | ⟨hps, hpayload⟩ | ⟨hps, rfl⟩ | ⟨hps, rfl⟩ | ⟨hps, rfl⟩ | ⟨-, rfl⟩ :=
    parse_cases hr
  · exact .of_header (.inr rfl) h.indexRange
  · exact
      { lengthLowFirst := fun _ => rfl
        lengthHighNext := nofun
        collecting := nofun
        lengthNeedsTarget := nofun
        indexRange := h.indexRange }
  · have hhigh : highByte (withLowByte s.packet.dataLength b) = 0#8 := by
      rw [highByte_withLowByte, h.lengthLowFirst hps]
      rfl
    exact
      { lengthLowFirst := nofun
        lengthHighNext := fun _ _ => hhigh
        collecting := nofun
        lengthNeedsTarget := nofun
        indexRange := h.indexRange }
  · exact applyLengthPolicy_parserInv (s := storeLengthHigh b s) hps h.indexRange
  · obtain ⟨tag, hcollecting⟩ := h.collecting hps
    obtain ⟨-, rfl⟩ | ⟨tag', htag, hcap, rfl⟩ := consumePayload_cases hpayload
    · obtain ⟨-, heq⟩ | ⟨-, heq⟩ := raiseViolation_cases s .bufferOverrun <;> rw [heq]
      · exact .of_header (.inl rfl) h.indexRange
      · exact
          { lengthLowFirst := h.lengthLowFirst
            lengthHighNext := nofun
            collecting := fun _ => ⟨tag, { hcollecting with }⟩
            lengthNeedsTarget := h.lengthNeedsTarget
            indexRange := h.indexRange }
    · obtain rfl : tag = tag' := by simpa [hcollecting.target] using htag
      exact hcollecting.payloadStored hps hcap b
  · exact .of_trailer (by simp [consumeChecksumLow]) (h.lengthNeedsTarget (by rw [hps]; rfl)) h.indexRange
  · exact .of_trailer (by simp [consumeChecksumHigh, enterDeviceId]) (h.lengthNeedsTarget (by rw [hps]; rfl)) h.indexRange
  · exact .of_trailer (by simp [consumeDeviceId, enterStatus, produceStatus]) (h.lengthNeedsTarget (by rw [hps]; rfl))
      h.indexRange
  · exact .of_header (.inl rfl) h.indexRange

theorem State.ParserInv.dispatchEvent (h : r.1.ParserInv) : (dispatchEvent r).ParserInv := by
  obtain ⟨-, heq⟩ | ⟨x, -, heq⟩ | ⟨-, heq⟩ := dispatchEvent_cases r <;> rw [heq]
  · exact h
  · exact h.congr rfl rfl rfl rfl
  · obtain ⟨-, heq⟩ | ⟨-, heq⟩ := packetReady_cases r.1 <;> rw [heq]
    · exact .of_header (.inl rfl) h.indexRange
    · exact h.congr rfl rfl rfl rfl

theorem State.ParserInv.completeByte (h : s.ParserInv) (hbyte : completeByte b t s = .next u) : u.ParserInv := by
  obtain ⟨r, hparse, rfl⟩ := completeByte_cases hbyte
  exact (h.parse hparse).dispatchEvent.congr rfl rfl rfl rfl

/-- `EDGE` keeps the parser's part: it writes SyncState only, or it completes a byte. -/
theorem State.ParserInv.edge (h : s.ParserInv) (hedge : edge c d t s = .next u) : u.ParserInv := by
  obtain ⟨-, rfl⟩ | ⟨-, -, rfl⟩ | ⟨-, -, -, rfl⟩ | ⟨-, -, -, hacts⟩ := edge_cases hedge
  · exact h
  · exact h.congr rfl rfl rfl rfl
  · exact h
  · obtain ⟨-, -, rfl⟩ | ⟨-, -, hreceive⟩ | ⟨-, -, rfl⟩ | ⟨-, -, rfl⟩ := hacts
    · unfold preambleScan
      split <;> exact h.congr rfl rfl rfl rfl
    · obtain ⟨-, hbyte⟩ | ⟨-, rfl⟩ := receiveBit_cases hreceive
      · have hframe : (beginFrame (recordLevel c s)).ParserInv := h.congr rfl rfl rfl rfl
        exact hframe.completeByte hbyte
      · exact h.congr rfl rfl rfl rfl
    · exact h.congr rfl rfl rfl rfl
    · exact h.congr rfl rfl rfl rfl

end ParserPart

section KeepsConsistent

variable {s u : State} {c d : Level} {t : Instant} {i : Instr}

/-- Fields that no invariant of the two parts speaks of may change freely. -/
theorem State.Consistent.congr (h : s.Consistent) (hwf : u.Wf) (hsync : u.sync = s.sync)
    (hps : u.parserState = s.parserState) (hpacket : u.packet = s.packet) (hhalted : u.halted = s.halted)
    (hparams : u.params = s.params) : u.Consistent := by
  obtain ⟨-, hstreamer, hparser⟩ := s.consistent_iff.1 h
  exact u.consistent_iff.2
    ⟨hwf, hstreamer.congr hsync (hps.trans ·) hparams, hparser.congr hps hpacket hhalted hparams⟩

theorem State.Consistent.start (h : s.Consistent) : s.start.Consistent := h.congr h.toWf.start rfl rfl rfl rfl rfl

theorem State.Consistent.edge (h : s.Consistent) (hedge : edge c d t s = .next u) : u.Consistent := by
  obtain ⟨hwf, hstreamer, hparser⟩ := s.consistent_iff.1 h
  exact u.consistent_iff.2 ⟨hwf.edge hedge, hstreamer.edge hedge, hparser.edge hedge⟩

theorem State.Consistent.checkPrint (h : s.Consistent) (t : Instant) : (checkPrint t s).Consistent := by
  have hwf := h.toWf.checkPrint t
  obtain ⟨-, heq⟩ | ⟨-, heq⟩ := checkPrint_cases t s <;> rw [heq] at hwf ⊢
  · exact h.congr hwf rfl rfl rfl rfl rfl
  · exact h

theorem State.Consistent.checkTimeout (h : s.Consistent) (t : Instant) : (checkTimeout t s).Consistent := by
  have hwf := h.toWf.checkTimeout t
  obtain ⟨-, heq⟩ | ⟨-, heq⟩ := checkTimeout_cases t s <;> rw [heq] at hwf ⊢
  · exact State.consistent_iff _ |>.2 ⟨hwf, .of_resynced (y := s.sync) rfl rfl, .of_header (.inl rfl) h.indexRange⟩
  · exact h

/-- `RESET` gives the pre-sync values and clears the index, in any state. -/
theorem State.resetAll_consistent (s : State) : s.resetAll.Consistent :=
  State.consistent_iff _ |>.2
    ⟨s.resetAll_wf, .of_preSync rfl ⟨rfl, rfl, rfl, rfl, rfl⟩, .of_header (.inl rfl) (Nat.zero_le _)⟩

/-- Every row that a collaborator can cause keeps the invariants. -/
theorem State.Consistent.exec (h : s.Consistent) (hi : i.external = true) (hexec : exec i s = .next u) :
    u.Consistent := by
  have hwf := h.toWf.exec hexec
  cases exec_rowOutcome hexec with
  | reset => exact s.resetAll_consistent
  | halted => exact h.start
  | poll t => exact (h.start.checkPrint t).checkTimeout t
  | clearReady => exact h.congr hwf rfl rfl rfl rfl rfl
  | query => exact h.congr hwf rfl rfl rfl rfl rfl
  | wire _ hedges => exact edges_keep State.Consistent (fun _ _ _ _ _ hs hedge => hs.edge hedge) _ _ _ _ h.start hedges
  | slot _ hinternal => cases hi.symm.trans hinternal
  | stage | byte | sessionResync | statusByte => cases hi

end KeepsConsistent

/-- Settles O51: an idle step by itself, any other by the row that it runs, which is external. -/
theorem stepKeepsConsistent : Obligations.StepKeepsConsistent := by
  intro s u h hexternal hstep
  obtain rfl | ⟨i, after, hdecode, hexec⟩ := step_cases hstep
  · exact h
  · have htape : State.Consistent { s with inputs := after } :=
      h.congr { h.toWf with } rfl rfl rfl rfl rfl
    exact htape.exec (hexternal i after hdecode) hexec

end Sys2Proof.Machine

namespace Sys2Proof.Machine

section Writers

variable {s u : State} {b : Byte} {c d : Level} {t : Instant} {i : Instr} {ps : ParserState} {r : State × ParserEvent}

/-! ### `previous_clock_level`, `initialized` and the line (rule R21, R22, R31)

The three elements of SyncState that the forced resynchronisation does not write (rule R30). -/

/-- The first call, the recorded clock level and the line are those of `y`. -/
structure SyncState.SameLines (y z : SyncState) : Prop where
  initialized : z.initialized = y.initialized
  previousClockLevel : z.previousClockLevel = y.previousClockLevel
  dataOut : z.dataOut = y.dataOut

theorem consume_sameLines (h : consume ps b t s = .next r) : s.sync.SameLines r.1.sync := by
  obtain heq | ⟨-, heq, -⟩ := consume_sync h <;> (rw [heq]; exact ⟨rfl, rfl, rfl⟩)

theorem completeByte_sameLines (h : completeByte b t s = .next u) : s.sync.SameLines u.sync := by
  obtain ⟨x, valid, heq⟩ | ⟨heq, -⟩ := completeByte_sync h <;> (rw [heq]; exact ⟨rfl, rfl, rfl⟩)

theorem preambleScan_sameLines (d : Level) (s : State) : s.sync.SameLines (preambleScan d s).sync := by
  unfold preambleScan
  split <;> exact ⟨rfl, rfl, rfl⟩

theorem receiveBit_sameLines (h : receiveBit d t s = .next u) : s.sync.SameLines u.sync := by
  obtain ⟨-, hbyte⟩ | ⟨-, rfl⟩ := receiveBit_cases h
  · obtain ⟨hinit, hclock, hline⟩ := completeByte_sameLines hbyte
    exact ⟨hinit, hclock, hline⟩
  · exact ⟨rfl, rfl, rfl⟩

/-- An `EDGE` of a running core records its level, and the first call is over (rule R110, rule R111). -/
theorem edge_recordsLevel (hrunning : s.halted = false) (h : edge c d t s = .next u) :
    u.sync.previousClockLevel = c ∧ u.sync.initialized = true := by
  obtain ⟨hhalted, -⟩ | ⟨-, -, rfl⟩ | ⟨-, hinit, hsame, rfl⟩ | ⟨-, hinit, -, hacts⟩ := edge_cases h
  · cases hrunning.symm.trans hhalted
  · exact ⟨rfl, rfl⟩
  · exact ⟨hsame.symm, hinit⟩
  · obtain ⟨-, -, rfl⟩ | ⟨-, -, hreceive⟩ | ⟨-, -, rfl⟩ | ⟨-, -, rfl⟩ := hacts
    · have hlines := preambleScan_sameLines d (recordLevel c s)
      exact ⟨hlines.previousClockLevel, hlines.initialized.trans hinit⟩
    · have hlines := receiveBit_sameLines hreceive
      exact ⟨hlines.previousClockLevel, hlines.initialized.trans hinit⟩
    · exact ⟨rfl, hinit⟩
    · exact ⟨rfl, hinit⟩

/-- An `EDGE` keeps the line, or it is a synchronized falling edge that drives and reports a level (rule R116). -/
theorem edge_dataOut (h : edge c d t s = .next u) :
    u.sync.dataOut = s.sync.dataOut
    ∨ (c = false ∧ s.sync.previousClockLevel = true ∧ s.sync.synchronized = true
      ∧ ∃ l, u.sync.dataOut = .level l ∧ u.events = s.events ++ [.driveOut l]) := by
  obtain ⟨-, rfl⟩ | ⟨-, -, rfl⟩ | ⟨-, -, -, rfl⟩ | ⟨-, -, hchange, hacts⟩ := edge_cases h
  · exact .inl rfl
  · exact .inl rfl
  · exact .inl rfl
  · obtain ⟨-, -, rfl⟩ | ⟨-, -, hreceive⟩ | ⟨rfl, hsync, rfl⟩ | ⟨-, -, rfl⟩ := hacts
    · exact .inl (preambleScan_sameLines d (recordLevel c s)).dataOut
    · exact .inl (receiveBit_sameLines hreceive).dataOut
    · exact .inr ⟨rfl, Bool.eq_true_of_not_eq_false hchange.symm, hsync, _, rfl, rfl⟩
    · exact .inl rfl

@[simp] theorem checkPrint_dataOut (t : Instant) (s : State) : (checkPrint t s).sync.dataOut = s.sync.dataOut := by
  obtain ⟨-, heq⟩ | ⟨-, heq⟩ := checkPrint_cases t s
  · rw [heq]; rfl
  · rw [heq]

@[simp] theorem checkTimeout_dataOut (t : Instant) (s : State) : (checkTimeout t s).sync.dataOut = s.sync.dataOut := by
  obtain ⟨-, heq⟩ | ⟨-, heq⟩ := checkTimeout_cases t s
  · rw [heq]; rfl
  · rw [heq]

theorem execPoll_dataOut (h : execPoll t s = .next u) : u.sync.dataOut = s.sync.dataOut := by
  unfold execPoll at h
  split at h <;> cases h
  · rfl
  · rw [checkTimeout_dataOut, checkPrint_dataOut, State.start_sync]

theorem execClearReady_dataOut (h : execClearReady s = .next u) : u.sync.dataOut = s.sync.dataOut := by
  unfold execClearReady at h
  split at h <;> (cases h; rfl)

theorem execParse_dataOut (h : execParse b t s = .next u) : u.sync.dataOut = s.sync.dataOut := by
  obtain ⟨r, hparse, hanswer⟩ := andThen_eq_next h
  cases hanswer
  exact (consume_sameLines ((parse_eq_consume b t s.start).symm.trans hparse)).dataOut

/-! ### PrinterStatus (rule R45) -/

/-- A byte writes PrinterStatus at the entry of `STATUS`, or by a violation. -/
theorem completeByte_printer (h : completeByte b t s = .next u) :
    u.printer = s.printer ∨ s.parserState = .deviceId
    ∨ ((s.parserState = .lengthHigh ∨ s.parserState = .payload)
      ∧ u.printer = { s.printer with checksumError := true } ∧ u.violationFlag = true) := by
  obtain ⟨r, hparse, rfl⟩ := completeByte_cases h
  rw [parse_eq_consume] at hparse
  simp only [pushDeadline_printer, pushDeadline_violationFlag, dispatchEvent_printer, dispatchEvent_violationFlag]
  by_cases hdevice : s.parserState = .deviceId
  · exact .inr (.inl hdevice)
  · obtain hframe | ⟨hps, v, cause, hframe, rfl⟩ := consume_cases hparse
    · exact .inl (hframe.printer hdevice)
    · rw [State.raiseViolation_printer, State.raiseViolation_violationFlag, hframe.printer hdevice]
      exact .inr (.inr ⟨hps, rfl, rfl⟩)

/-- An `EDGE` keeps PrinterStatus, or it completes a byte that writes it. -/
theorem edge_printer (h : edge c d t s = .next u) :
    u.printer = s.printer
    ∨ (c = true ∧ s.sync.synchronized = true ∧ s.sync.bitPosition = 0#3
      ∧ (s.parserState = .deviceId
        ∨ ((s.parserState = .lengthHigh ∨ s.parserState = .payload)
          ∧ u.printer = { s.printer with checksumError := true } ∧ u.violationFlag = true))) := by
  obtain ⟨-, rfl⟩ | ⟨-, -, rfl⟩ | ⟨-, -, -, rfl⟩ | ⟨-, -, -, hacts⟩ := edge_cases h
  · exact .inl rfl
  · exact .inl rfl
  · exact .inl rfl
  · obtain ⟨-, -, rfl⟩ | ⟨hrise, hsync, hreceive⟩ | ⟨-, -, rfl⟩ | ⟨-, -, rfl⟩ := hacts
    · unfold preambleScan
      split <;> exact .inl rfl
    · obtain ⟨hposition, hbyte⟩ | ⟨-, rfl⟩ := receiveBit_cases hreceive
      · exact (completeByte_printer hbyte).imp id fun hwrites => ⟨hrise, hsync, hposition, hwrites⟩
      · exact .inl rfl
    · exact .inl rfl
    · exact .inl rfl

/-! ### `ready_flag` (rule R46) -/

theorem consume_readyFlag (h : consume ps b t s = .next r) : r.1.readyFlag = s.readyFlag := by
  obtain hframe | ⟨-, v, cause, hframe, rfl⟩ := consume_cases h
  · exact hframe.readyFlag
  · exact (v.raiseViolation_readyFlag cause).trans hframe.readyFlag

theorem completeByte_readyFlag (hready : s.readyFlag = true) (h : completeByte b t s = .next u) :
    u.readyFlag = true := by
  obtain ⟨r, hparse, rfl⟩ := completeByte_cases h
  rw [parse_eq_consume] at hparse
  exact dispatchEvent_readyFlag ((consume_readyFlag hparse).trans hready)

theorem edge_readyFlag (hready : s.readyFlag = true) (h : edge c d t s = .next u) : u.readyFlag = true := by
  obtain ⟨-, rfl⟩ | ⟨-, -, rfl⟩ | ⟨-, -, -, rfl⟩ | ⟨-, -, -, hacts⟩ := edge_cases h
  · exact hready
  · exact hready
  · exact hready
  · obtain ⟨-, -, rfl⟩ | ⟨-, -, hreceive⟩ | ⟨-, -, rfl⟩ | ⟨-, -, rfl⟩ := hacts
    · unfold preambleScan
      split <;> exact hready
    · obtain ⟨-, hbyte⟩ | ⟨-, rfl⟩ := receiveBit_cases hreceive
      · have hframe : (beginFrame (recordLevel c s)).readyFlag = true := hready
        exact completeByte_readyFlag hframe hbyte
      · exact hready
    · exact hready
    · exact hready

theorem edges_readyFlag {es : List (Level × Level)} (hready : s.readyFlag = true) (h : edges es t s = .next u) :
    u.readyFlag = true :=
  edges_keep (·.readyFlag = true) (fun _ _ _ _ _ hs hedge => edge_readyFlag hs hedge) es t s u hready h

@[simp] theorem checkPrint_readyFlag (t : Instant) (s : State) : (checkPrint t s).readyFlag = s.readyFlag := by
  obtain ⟨-, heq⟩ | ⟨-, heq⟩ := checkPrint_cases t s
  · rw [heq]; rfl
  · rw [heq]

@[simp] theorem checkTimeout_readyFlag (t : Instant) (s : State) : (checkTimeout t s).readyFlag = s.readyFlag := by
  obtain ⟨-, heq⟩ | ⟨-, heq⟩ := checkTimeout_cases t s
  · rw [heq]; rfl
  · rw [heq]

/-- Every row but `CLEAR_READY` and `RESET` leaves a set `ready_flag` set. -/
theorem exec_readyFlag (hready : s.readyFlag = true) (hclear : i ≠ .clearReady) (hreset : i ≠ .reset)
    (h : exec i s = .next u) : u.readyFlag = true := by
  cases exec_rowOutcome h with
  | reset => exact absurd rfl hreset
  | clearReady => exact absurd rfl hclear
  | poll t => rw [checkTimeout_readyFlag, checkPrint_readyFlag]; exact hready
  | wire _ hedges => exact edges_readyFlag (s := s.start) hready hedges
  | byte b t hbyte => exact completeByte_readyFlag (s := s.start) hready hbyte
  | slot ps _ hslot => exact (consume_readyFlag hslot).trans hready
  | halted | query | stage | sessionResync | statusByte => exact hready

end Writers

/-- Settles O16, by the law of `EDGE`. -/
theorem edgeStoresItsLevel : Obligations.EdgeStoresItsLevel := by
  intro s u c d t hrunning h
  exact edge_recordsLevel (s := s.start) hrunning h

/-- Settles O53: of every other row `exec_readyFlag` says that the flag stays set. -/
theorem readyFlagClearedOnlyByConsumer : Obligations.ReadyFlagClearedOnlyByConsumer := by
  intro s u i hready h hcleared
  by_contra hother
  obtain ⟨hclear, hreset⟩ := not_or.1 hother
  cases hcleared.symm.trans (exec_readyFlag hready hclear hreset h)

/-- Settles O58: `EDGE` by its law, the rows listed each by what they do to SyncState. -/
theorem lineDrivenOnlyByFallingEdge : Obligations.LineDrivenOnlyByFallingEdge := by
  refine ⟨fun s u c d t h hchanged => (edge_dataOut (s := s.start) h).resolve_left hchanged, fun s u b t i hi h => ?_⟩
  simp only [List.mem_cons, List.not_mem_nil, or_false] at hi
  obtain rfl | rfl | rfl | rfl | rfl | rfl | rfl | rfl | rfl := hi
  · exact execPoll_dataOut h
  · exact execClearReady_dataOut h
  · cases h; rfl
  · cases h; rfl
  · cases h; rfl
  · exact (completeByte_sameLines (s := s.start) h).dataOut
  · exact execParse_dataOut h
  · cases h; rfl
  · cases h; rfl

/-- Settles O59, by the law of `EDGE`. -/
theorem printerStatusWrittenByParser : Obligations.PrinterStatusWrittenByParser := by
  intro s u c d t h hchanged
  exact (edge_printer (s := s.start) h).resolve_left hchanged

end Sys2Proof.Machine

/-!
PROOFS. The statements on the buffers (20_memory.md): which rows write a buffer byte, and which byte (rule R63, R72, R73), the
payload write without a target (rule R61), and the step as one operation of the total order (rule R66).
-/
namespace Sys2Proof

/-- The rows that can reach a buffer byte: `RESET`, and those that can run `PAYLOAD`. -/
def Instr.reachesBuffer : Instr → Bool
  | .reset | .slotPayload _ | .parse _ _ | .byte _ _ | .edge _ _ _ | .bitcell _ _ | .frame _ _ | .preamble _
  | .init _ | .print _ | .data _ | .inquiry _ | .unknown _ _ => true
  | _ => false

end Sys2Proof

namespace Sys2Proof.Machine

section BufferWrites

variable {s u v : State} {b : Byte} {c d : Level} {t : Instant} {i : Instr} {ps : ParserState} {r : State × ParserEvent}

/-! ### What keeps every buffer byte

`MemRead` reads the two buffers and the count of resets, so a part of the model that assigns other fields keeps the memory by
computation. -/

/-- Every offset of both buffers reads as in `s`. -/
def State.SameMemory (s u : State) : Prop := ∀ tag off, u.memRead tag off = s.memRead tag off

theorem State.SameMemory.refl (s : State) : s.SameMemory s := fun _ _ => rfl

theorem State.SameMemory.trans (h : s.SameMemory u) (k : u.SameMemory v) : s.SameMemory v :=
  fun tag off => (k tag off).trans (h tag off)

theorem raiseViolation_sameMemory (s : State) (cause : ViolationCause) : s.SameMemory (s.raiseViolation cause) := by
  obtain ⟨-, heq⟩ | ⟨-, heq⟩ := raiseViolation_cases s cause <;> (rw [heq]; exact fun _ _ => rfl)

theorem consumeLengthHigh_sameMemory (b : Byte) (s : State) : s.SameMemory (consumeLengthHigh b s).1 := by
  have hstore : s.SameMemory (storeLengthHigh b s) := fun _ _ => rfl
  refine hstore.trans ?_
  unfold consumeLengthHigh
  obtain ⟨-, heq⟩ | ⟨-, -, heq⟩ | ⟨tag, -, -, heq⟩ := applyLengthPolicy_cases (storeLengthHigh b s) <;> rw [heq]
  · exact fun _ _ => rfl
  · exact raiseViolation_sameMemory _ _
  · exact fun _ _ => rfl

theorem leavePayload_sameMemory (s : State) : s.SameMemory (leavePayload s) := by
  unfold leavePayload
  split <;> exact fun _ _ => rfl

theorem dispatchEvent_sameMemory (r : State × ParserEvent) : r.1.SameMemory (dispatchEvent r) := by
  obtain ⟨-, heq⟩ | ⟨x, -, heq⟩ | ⟨-, heq⟩ := dispatchEvent_cases r <;> rw [heq]
  · exact .refl _
  · exact fun _ _ => rfl
  · obtain ⟨-, heq⟩ | ⟨-, heq⟩ := packetReady_cases r.1 <;> (rw [heq]; exact fun _ _ => rfl)

theorem preambleScan_sameMemory (d : Level) (s : State) : s.SameMemory (preambleScan d s) := by
  unfold preambleScan
  split <;> exact fun _ _ => rfl

theorem checkPrint_sameMemory (t : Instant) (s : State) : s.SameMemory (checkPrint t s) := by
  obtain ⟨-, heq⟩ | ⟨-, heq⟩ := checkPrint_cases t s <;> (rw [heq]; exact fun _ _ => rfl)

theorem checkTimeout_sameMemory (t : Instant) (s : State) : s.SameMemory (checkTimeout t s) := by
  obtain ⟨-, heq⟩ | ⟨-, heq⟩ := checkTimeout_cases t s <;> (rw [heq]; exact fun _ _ => rfl)

/-! ### The one write (rule R63, rule R148) -/

/-- At most the byte at `payload_index` of the payload target differs, and it is below the capacity (rule R73). -/
structure State.PayloadStored (tag : BufferTag) (s u : State) : Prop where
  target : s.packet.payloadTarget = some tag
  inBounds : s.packet.payloadIndex.toNat < s.params.capacity tag
  elsewhere : ∀ tag' off, ¬ (tag' = tag ∧ off = s.packet.payloadIndex.toNat) → u.memRead tag' off = s.memRead tag' off

theorem State.PayloadStored.trans {tag : BufferTag} (h : s.PayloadStored tag u) (k : u.SameMemory v) :
    s.PayloadStored tag v :=
  { h with elsewhere := fun tag' off hother => (k tag' off).trans (h.elsewhere tag' off hother) }

theorem storePayload_stored {tag : BufferTag} (htarget : s.packet.payloadTarget = some tag)
    (hcap : s.packet.payloadIndex.toNat < s.params.capacity tag) (b : Byte) :
    s.PayloadStored tag (storePayload tag b s) :=
  ⟨htarget, hcap, fun tag' off hother => s.memRead_memWrite_other tag tag' _ off b hother⟩

/-- A slot keeps both buffers, or it is `PAYLOAD` and stores its byte. -/
theorem consume_memory (h : consume ps b t s = .next r) :
    s.SameMemory r.1 ∨ (ps = .payload ∧ ∃ tag, s.PayloadStored tag r.1) := by
  cases ps with
  | lengthHigh => cases h; exact .inl (consumeLengthHigh_sameMemory b s)
  | payload =>
    obtain ⟨-, rfl⟩ | ⟨tag, htarget, hcap, rfl⟩ := consumePayload_cases h
    · exact .inl (raiseViolation_sameMemory s _)
    · exact .inr ⟨rfl, tag, (storePayload_stored htarget hcap b).trans (leavePayload_sameMemory _)⟩
  | packetReceived => cases h
  | command | compression | lengthLow | checksumLow | checksumHigh | deviceId | status =>
    cases h; exact .inl fun _ _ => rfl

/-- `BYTE` writes what its slot writes: the dispatch and the deadline reach no buffer. -/
theorem completeByte_memory (h : completeByte b t s = .next u) :
    s.SameMemory u ∨ (s.parserState = .payload ∧ ∃ tag, s.PayloadStored tag u) := by
  obtain ⟨r, hparse, rfl⟩ := completeByte_cases h
  rw [parse_eq_consume] at hparse
  have hrest : r.1.SameMemory (pushDeadline t (dispatchEvent r)) := dispatchEvent_sameMemory r
  obtain hsame | ⟨hps, tag, hstored⟩ := consume_memory hparse
  · exact .inl (hsame.trans hrest)
  · exact .inr ⟨hps, tag, hstored.trans hrest⟩

/-- An `EDGE` keeps both buffers, or it is a rising edge that completes a byte in `PAYLOAD`. -/
theorem edge_memory (h : edge c d t s = .next u) :
    s.SameMemory u
    ∨ (c = true ∧ s.sync.synchronized = true ∧ s.sync.bitPosition = 0#3 ∧ s.parserState = .payload
      ∧ ∃ tag, s.PayloadStored tag u) := by
  obtain ⟨-, rfl⟩ | ⟨-, -, rfl⟩ | ⟨-, -, -, rfl⟩ | ⟨-, -, -, hacts⟩ := edge_cases h
  · exact .inl (.refl _)
  · exact .inl fun _ _ => rfl
  · exact .inl (.refl _)
  · obtain ⟨-, -, rfl⟩ | ⟨hrise, hsync, hreceive⟩ | ⟨-, -, rfl⟩ | ⟨-, -, rfl⟩ := hacts
    · exact .inl (preambleScan_sameMemory d (recordLevel c s))
    · obtain ⟨hposition, hbyte⟩ | ⟨-, rfl⟩ := receiveBit_cases hreceive
      · obtain hsame | ⟨hps, tag, hstored⟩ := completeByte_memory hbyte
        · exact .inl hsame
        · exact .inr ⟨hrise, hsync, hposition, hps, tag, { hstored with }⟩
      · exact .inl fun _ _ => rfl
    · exact .inl fun _ _ => rfl
    · exact .inl fun _ _ => rfl

/-! ### The rows that reach no buffer -/

theorem execPoll_sameMemory (h : execPoll t s = .next u) : s.SameMemory u := by
  unfold execPoll at h
  split at h <;> cases h
  · exact fun _ _ => rfl
  · exact (checkPrint_sameMemory t s.start).trans (checkTimeout_sameMemory t _)

theorem execClearReady_sameMemory (h : execClearReady s = .next u) : s.SameMemory u := by
  unfold execClearReady at h
  split at h <;> (cases h; exact fun _ _ => rfl)

/-- Every other row keeps both buffers (rule R72). -/
theorem exec_sameMemory (hi : i.reachesBuffer = false) (h : exec i s = .next u) : s.SameMemory u := by
  cases i with
  | poll t => exact execPoll_sameMemory h
  | clearReady => exact execClearReady_sameMemory h
  | slotLengthHigh b => cases h; exact consumeLengthHigh_sameMemory b s.start
  | isReady | getImage | getLastCommand | stage | sessionResync | slotCommand | slotCompression | slotLengthLow
  | slotChecksumLow | slotChecksumHigh | slotDeviceId | slotStatus | statusByte => cases h; exact fun _ _ => rfl
  | reset | slotPayload | parse | byte | edge | bitcell | frame | preamble | init | print | data | inquiry | unknown =>
    cases hi

/-! ### A payload write without a target (notes/assumptions/10.md) -/

/-- With no target the index is compared with the capacity of the image buffer (rule R148), and no buffer takes the byte. -/
theorem consumePayload_noTarget (htarget : s.packet.payloadTarget = none)
    (hcap : s.packet.payloadIndex.toNat < s.params.imageCapacity) : consumePayload b s = .fault .noSuchBuffer := by
  unfold consumePayload
  rw [htarget]
  exact if_neg (Nat.not_le.2 hcap)

/-! ### A step with a record pending (rule R66) -/

/-- An admitted instance runs the record that its tape begins with; an empty tape has none. -/
theorem step_of_decode {after : List Byte} (hwf : s.params.wf = true) (hdecode : decode s.params s.inputs = .ok (i, after)) :
    step s = exec i { s with inputs := after } := by
  unfold step
  rw [if_neg (by simp [hwf])]
  cases htape : s.inputs with
  | nil => rw [htape] at hdecode; cases hdecode
  | cons tag rest => rw [htape] at hdecode; simp only [hdecode]

end BufferWrites

/-- Settles O4, by the law of a step with a record pending. -/
theorem stepRunsDecodedInstruction : Obligations.StepRunsDecodedInstruction :=
  fun _ _ _ hwf hdecode => step_of_decode hwf hdecode

/-- Settles O25: the start of the operation writes neither the target nor the index, so the slot stops. -/
theorem payloadWithoutTargetStops : Obligations.PayloadWithoutTargetStops := by
  intro s b htarget hcap
  have hstop : consumePayload b s.start = .fault .noSuchBuffer := consumePayload_noTarget htarget hcap
  change execSlotPayload b s = _
  rw [execSlotPayload, hstop, andThen_fault]

/-- Settles O56: a byte that changed is no byte that `PayloadStored` keeps. -/
theorem edgeWritesOnlyThePayloadByte : Obligations.EdgeWritesOnlyThePayloadByte := by
  intro s u c d t tag off h hchanged
  obtain hsame | ⟨hrise, hsync, hposition, hps, tag', hstored⟩ := edge_memory (s := s.start) h
  · exact absurd (hsame tag off) hchanged
  · obtain ⟨rfl, rfl⟩ := not_not.1 fun hother => hchanged (hstored.elsewhere tag off hother)
    exact ⟨hps, hstored.target, rfl, hstored.inBounds, hrise, hsync, hposition⟩

/-- Settles O57: none of the rows listed reaches a buffer. -/
theorem otherRowsWriteNoBufferByte : Obligations.OtherRowsWriteNoBufferByte := by
  intro s u i b t x y z w hi h
  refine exec_sameMemory ?_ h
  simp only [List.mem_cons, List.not_mem_nil, or_false] at hi
  obtain rfl | rfl | rfl | rfl | rfl | rfl | rfl | rfl | rfl | rfl | rfl | rfl | rfl | rfl | rfl | rfl := hi <;> rfl

end Sys2Proof.Machine

/-!
PROOFS. The statements on the encodings of the wire (30_encoding.md): the command byte (rule R88), the status byte (rule R92), and
the wire formats as runs of `EDGE` (rule R82 to rule R86).

The formats rest on one law for rows that are runs of edges (`runAll_map_eq_edges`), one for a bit cell while synchronized
(`edges_cell_exchange`) and one for a bit cell while scanning (`edges_cell_scan`).
-/
namespace Sys2Proof

/-! ### The command byte (rule R88) -/

/-- The four values that are compared with, as rule R88 reads them, are pairwise distinct under rule R7. -/
theorem Params.codes_pairwise {p : Params} (h : p.wf = true) :
    p.cmdData ≠ p.cmdInit ∧ p.cmdPrint ≠ p.cmdInit ∧ p.cmdPrint ≠ p.cmdData ∧ p.cmdInquiry ≠ p.cmdInit
      ∧ p.cmdInquiry ≠ p.cmdData ∧ p.cmdInquiry ≠ p.cmdPrint := by
  obtain ⟨hcodes, -⟩ := p.wf_iff.1 h
  simp only [List.nodup_cons, List.mem_cons, List.not_mem_nil, or_false, not_or] at hcodes
  obtain ⟨⟨hinitPrint, hinitData, hinitInquiry⟩, ⟨hprintData, hprintInquiry⟩, hdataInquiry, -⟩ := hcodes
  exact ⟨Ne.symm hinitData, Ne.symm hinitPrint, hprintData, Ne.symm hinitInquiry, Ne.symm hdataInquiry,
    Ne.symm hprintInquiry⟩

/-- A byte is `UNKNOWN` exactly when it equals none of the four codes. -/
theorem decodeCommand_eq_unknown_iff (p : Params) (b : Byte) :
    decodeCommand p b = .unknown ↔ b ≠ p.cmdInit ∧ b ≠ p.cmdData ∧ b ≠ p.cmdPrint ∧ b ≠ p.cmdInquiry := by
  unfold decodeCommand
  split_ifs <;> simp_all

/-- The numbers of the bytes that are not `UNKNOWN` are the numbers of the four codes, in some order. -/
theorem known_bytes_perm {p : Params} (h : p.wf = true) :
    ((List.range 256).filter fun n => !decide (decodeCommand p (BitVec.ofNat 8 n) = .unknown)).Perm
      ([p.cmdInit, p.cmdPrint, p.cmdData, p.cmdInquiry].map BitVec.toNat) := by
  obtain ⟨hcodes, -⟩ := p.wf_iff.1 h
  have hnumbers : ([p.cmdInit, p.cmdPrint, p.cmdData, p.cmdInquiry].map BitVec.toNat).Nodup :=
    hcodes.map fun _ _ => BitVec.eq_of_toNat_eq
  refine (List.perm_ext_iff_of_nodup (List.nodup_range.filter _) hnumbers).2 fun n => ?_
  have hnumber (c : Byte) : n = c.toNat ↔ n < 256 ∧ BitVec.ofNat 8 n = c := by
    have hc := c.isLt
    constructor
    · rintro rfl; exact ⟨hc, by simp⟩
    · rintro ⟨hn, rfl⟩; simp [Nat.mod_eq_of_lt hn]
  simp only [List.mem_filter, List.mem_range, Bool.not_eq_true', decide_eq_false_iff_not, decodeCommand_eq_unknown_iff,
    List.map_cons, List.map_nil, List.mem_cons, List.not_mem_nil, or_false, hnumber]
  tauto

/-- All but four byte values are `UNKNOWN`. -/
theorem unknown_bytes_count {p : Params} (h : p.wf = true) :
    ((List.range 256).filter fun n => decide (decodeCommand p (BitVec.ofNat 8 n) = .unknown)).length = 252 := by
  have hsplit := List.length_eq_length_filter_add (l := List.range 256)
    fun n => decide (decodeCommand p (BitVec.ofNat 8 n) = .unknown)
  have hknown := (known_bytes_perm h).length_eq
  rw [List.length_range] at hsplit
  simp only [List.length_map, List.length_cons, List.length_nil] at hknown
  omega

/-- Settles O2: the comparisons of rule R88 in their order, and the four codes are distinct (rule R7). -/
theorem commandDecodeByEquality : Obligations.CommandDecodeByEquality := by
  intro p h
  obtain ⟨hdataInit, hprintInit, hprintData, hinquiryInit, hinquiryData, hinquiryPrint⟩ := Params.codes_pairwise h
  refine ⟨?_, ?_, ?_, ?_, decodeCommand_eq_unknown_iff p, unknown_bytes_count h⟩
  · simp [decodeCommand]
  · simp [decodeCommand, hdataInit]
  · simp [decodeCommand, hprintInit, hprintData]
  · simp [decodeCommand, hinquiryInit, hinquiryData, hinquiryPrint]

/-! ### The status byte (rule R92) -/

/-- A bit of the status byte is the disjunction of the flags that stand there. -/
theorem encodeStatus_getLsbD (p : Params) (e b f u : Bool) (k : Fin 8) :
    (encodeStatus p e b f u).getLsbD k.val
      = ((((e && decide (k = p.bitChecksumError)) || (b && decide (k = p.bitPrinterBusy)))
        || (f && decide (k = p.bitPrintBufferFull))) || (u && decide (k = p.bitUnprocessedData))) := by
  simp only [encodeStatus, BitVec.getLsbD_or, flagAt_getLsbD]

/-- Settles O29: at each position only one flag can stand, for the positions are distinct (rule R7). -/
theorem statusByteBitPerFlag : Obligations.StatusByteBitPerFlag := by
  intro p e b f u h
  obtain ⟨-, hbits, -⟩ := p.wf_iff.1 h
  simp only [List.nodup_cons, List.mem_cons, List.not_mem_nil, or_false, not_or] at hbits
  obtain ⟨⟨hChecksumBusy, hChecksumFull, hChecksumData⟩, ⟨hBusyFull, hBusyData⟩, hFullData, -⟩ := hbits
  simp only [encodeStatus_getLsbD]
  refine ⟨?_, ?_, ?_, ?_, fun k hChecksum hBusy hFull hData => ?_⟩
  · simp [hChecksumBusy, hChecksumFull, hChecksumData]
  · simp [Ne.symm hChecksumBusy, hBusyFull, hBusyData]
  · simp [Ne.symm hChecksumFull, Ne.symm hBusyFull, hFullData]
  · simp [Ne.symm hChecksumData, Ne.symm hBusyData, Ne.symm hFullData]
  · simp [hChecksum, hBusy, hFull, hData]

end Sys2Proof

namespace Sys2Proof.Machine

/-- The row runs `produceStatus` on the flags given (notes/assumptions/9.md). -/
theorem exec_statusByte (s : State) (u f b e : Bool) :
    exec (.statusByte u f b e) s = .next (answerEvent (produceStatus
      { checksumError := e, unprocessedDataPresent := u, printBufferFull := f, printerBusy := b } s.start)) := rfl

/-- Settles O30: `produceStatus` records the byte of rule R92 and returns it for transmission. -/
theorem statusByteRowProducesByte : Obligations.StatusByteRowProducesByte := by
  intro s u f b e
  rw [exec_statusByte]
  rfl

end Sys2Proof.Machine

namespace Sys2Proof.Machine

section WireRows

variable {s u : State} {b : Byte} {c d : Level} {t : Instant} {ps : ParserState} {r : State × ParserEvent}

/-! ### No `EDGE` returns a value (rule R81)

A result is the answer of a query or of a sub-operation called on its own; the parts that an `EDGE` runs leave it alone. -/

theorem raiseViolation_result (s : State) (cause : ViolationCause) : (s.raiseViolation cause).result = s.result := by
  obtain ⟨-, heq⟩ | ⟨-, heq⟩ := raiseViolation_cases s cause <;> (rw [heq]; rfl)

theorem applyLengthPolicy_result (s : State) : (applyLengthPolicy s).result = s.result := by
  obtain ⟨-, heq⟩ | ⟨-, -, heq⟩ | ⟨tag, -, -, heq⟩ := applyLengthPolicy_cases s <;> rw [heq]
  · rfl
  · exact raiseViolation_result s _
  · rfl

theorem leavePayload_result (s : State) : (leavePayload s).result = s.result := by
  unfold leavePayload
  split <;> rfl

theorem consume_result (h : consume ps b t s = .next r) : r.1.result = s.result := by
  cases ps with
  | lengthHigh => cases h; exact applyLengthPolicy_result (storeLengthHigh b s)
  | payload =>
    obtain ⟨-, rfl⟩ | ⟨tag, -, -, rfl⟩ := consumePayload_cases h
    · exact raiseViolation_result s _
    · exact (leavePayload_result _).trans (s.memWrite_result tag _ b)
  | packetReceived => cases h
  | command | compression | lengthLow | checksumLow | checksumHigh | deviceId | status => cases h; rfl

theorem dispatchEvent_result (r : State × ParserEvent) : (dispatchEvent r).result = r.1.result := by
  obtain ⟨-, heq⟩ | ⟨x, -, heq⟩ | ⟨-, heq⟩ := dispatchEvent_cases r <;> rw [heq]
  · rfl
  · obtain ⟨-, heq⟩ | ⟨-, heq⟩ := packetReady_cases r.1 <;> (rw [heq]; rfl)

theorem completeByte_result (h : completeByte b t s = .next u) : u.result = s.result := by
  obtain ⟨r, hparse, rfl⟩ := completeByte_cases h
  rw [parse_eq_consume] at hparse
  exact (dispatchEvent_result r).trans (consume_result hparse)

theorem edge_result (h : edge c d t s = .next u) : u.result = s.result := by
  obtain ⟨-, rfl⟩ | ⟨-, -, rfl⟩ | ⟨-, -, -, rfl⟩ | ⟨-, -, -, hacts⟩ := edge_cases h
  · rfl
  · rfl
  · rfl
  · obtain ⟨-, -, rfl⟩ | ⟨-, -, hreceive⟩ | ⟨-, -, rfl⟩ | ⟨-, -, rfl⟩ := hacts
    · unfold preambleScan
      split <;> rfl
    · obtain ⟨-, hbyte⟩ | ⟨-, rfl⟩ := receiveBit_cases hreceive
      · exact completeByte_result (s := beginFrame (recordLevel c s)) hbyte
      · rfl
    · rfl
    · rfl

/-- A run of edges that begins an operation leaves no result. -/
theorem edges_start_result {es : List (Level × Level)} (h : edges es t s.start = .next u) : u.result = none :=
  edges_keep (·.result = none) (fun _ _ _ _ _ hs hedge => (edge_result hedge).trans hs) es t s.start u rfl h

/-! ### A row that is a run of edges, and a sequence of such rows (rule R82, R97) -/

/-- In every state, the row is the run of the edges `es` at the instant `t`. -/
def RunsEdges (i : Instr) (es : List (Level × Level)) (t : Instant) : Prop := ∀ s, exec i s = edges es t s.start

theorem runsEdges_edge (c d : Level) (t : Instant) : RunsEdges (.edge c d t) [(c, d)] t :=
  fun s => (edges_singleton c d t s.start).symm

theorem runsEdges_bitcell (d : Level) (t : Instant) : RunsEdges (.bitcell d t) (cellEdges d) t := fun _ => rfl

theorem runsEdges_frame (b : Byte) (t : Instant) : RunsEdges (.frame b t) (frameEdges b) t := fun _ => rfl

/-- What follows an outcome matters only at the next states that the outcome answers. -/
theorem andThen_congr {α β : Type} {o : Host.Outcome α Fault Refusal} {f g : α → Host.Outcome β Fault Refusal}
    (h : ∀ a, o = .next a → f a = g a) : andThen o f = andThen o g := by
  cases o with
  | next a => exact h a rfl
  | fault | refused => rfl

/-- Edges that go on from a state without a result are those of a new operation, behind the events already there. -/
theorem edges_eq_mapNext_start (es : List (Level × Level)) (t : Instant) (h : u.result = none) :
    edges es t u = mapNext (State.prepend u.events) (edges es t u.start) := by
  rw [← prepend_edges]
  congr 1
  simp [State.prepend, State.start, ← h]

/-- Rows that are runs of edges, one after the other, are the run of all their edges, with the events joined. -/
theorem runAll_map_eq_edges {α : Type} {f : α → Instr} {g : α → List (Level × Level)}
    (hrow : ∀ a, RunsEdges (f a) (g a) t) {xs : List α} (hne : xs ≠ []) (s : State) :
    runAll (xs.map f) s = edges (xs.flatMap g) t s.start := by
  induction xs generalizing s with
  | nil => exact absurd rfl hne
  | cons x rest ih =>
    rw [List.map_cons, runAll, hrow x s, List.flatMap_cons, edges_append]
    refine andThen_congr fun u hu => ?_
    have hresult := edges_start_result hu
    cases rest with
    | nil => simp [runAll, edges]
    | cons y rest =>
      rw [ih (List.cons_ne_nil y rest) u, edges_eq_mapNext_start _ t hresult]
      rfl

/-- The level given to a falling edge is ignored (rule R82: `x`). -/
theorem edge_falling_ignores_data (x d : Level) (t : Instant) (s : State) : edge false x t s = edge false d t s := by
  have hacts : actOnEdge false x t (recordLevel false s) = actOnEdge false d t (recordLevel false s) := by
    cases hsync : (recordLevel false s).sync.synchronized
    · rw [actOnEdge_silent hsync, actOnEdge_silent hsync]
    · rw [actOnEdge_transmit hsync, actOnEdge_transmit hsync]
  unfold edge
  rw [hacts]

/-- A bit cell is its falling and its rising edge (rule R82). -/
theorem exec_bitcell_eq_runAll (s : State) (d x : Level) (t : Instant) :
    exec (.bitcell d t) s = runAll [.edge false x t, .edge true d t] s := by
  have hrun := runAll_map_eq_edges (f := fun e : Level × Level => .edge e.1 e.2 t) (g := fun e => [e])
    (fun e => runsEdges_edge e.1 e.2 t) (List.cons_ne_nil (false, x) [(true, d)]) s
  refine Eq.trans ?_ hrun.symm
  change edges [(false, d), (true, d)] t s.start = edges [(false, x), (true, d)] t s.start
  rw [edges, edges, edge_falling_ignores_data x d]

theorem msbFirst_ne_nil {n : Nat} (hn : n ≠ 0) (v : BitVec n) : msbFirst n v ≠ [] := by
  simpa [msbFirst] using hn

/-- A row that runs the edges of a list of levels is the sequence of their bit cells (rule R83, R84). -/
theorem runAll_cells_eq_edges {ds : List Level} (hne : ds ≠ []) (t : Instant) (s : State) :
    runAll (cells ds t) s = edges (levelEdges ds) t s.start :=
  runAll_map_eq_edges (fun d => runsEdges_bitcell d t) hne s

/-- A packet is the sequence of the frames of its bytes (rule R86). -/
theorem sendPacket_eq_runAll (cmd : Byte) (m : PacketBody) (s : State) :
    sendPacket cmd m s = runAll ((packetBytes cmd m).map fun x => Instr.frame x m.instant) s :=
  (runAll_map_eq_edges (fun x => runsEdges_frame x m.instant) (List.cons_ne_nil _ _) s).symm

end WireRows

/-- Settles O42: each format by the law of sequences of rows, over the rows that it is made of. -/
theorem wireFormatsAreTheirEdges : Obligations.WireFormatsAreTheirEdges := by
  refine ⟨exec_bitcell_eq_runAll, fun s b t => ?_, fun s t => ?_, fun s m => ?_⟩
  · exact (runAll_cells_eq_edges (msbFirst_ne_nil (by decide) b) t s).symm
  · exact (runAll_cells_eq_edges (msbFirst_ne_nil (by decide) s.params.syncWord) t s).symm
  · exact ⟨sendPacket_eq_runAll _ m s, sendPacket_eq_runAll _ m s, sendPacket_eq_runAll _ m s,
      sendPacket_eq_runAll _ m s, fun b => sendPacket_eq_runAll b m s⟩

end Sys2Proof.Machine

namespace Sys2Proof.Machine

section Exchange

variable {s : State}

/-! ### A bit cell while synchronized (rule R82, R114, R116) -/

/-- The core runs, past its first call and synchronized, with the clock at 1: a bit cell drives a bit and receives one. -/
structure State.Exchanging (s : State) : Prop where
  running : s.halted = false
  called : s.sync.initialized = true
  clockHigh : s.sync.previousClockLevel = true
  synchronized : s.sync.synchronized = true

/-- A falling edge acts where the clock was high. -/
theorem edge_falls (hrunning : s.halted = false) (hcalled : s.sync.initialized = true)
    (hclock : s.sync.previousClockLevel = true) (d : Level) (t : Instant) :
    edge false d t s = actOnEdge false d t (recordLevel false s) :=
  edge_acts hrunning hcalled (by simp [hclock])

/-- A rising edge acts where the clock was low. -/
theorem edge_rises (hrunning : s.halted = false) (hcalled : s.sync.initialized = true)
    (hclock : s.sync.previousClockLevel = false) (d : Level) (t : Instant) :
    edge true d t s = actOnEdge true d t (recordLevel true s) :=
  edge_acts hrunning hcalled (by simp [hclock])

theorem recordLevel_of_eq {c : Level} (h : s.sync.previousClockLevel = c) : recordLevel c s = s := by
  rw [recordLevel, ← h]

/-- A synchronized bit cell drives, then samples: its two edges leave the recorded clock level as they found it. -/
theorem edges_cell_exchange (h : s.Exchanging) (d : Level) (t : Instant) :
    edges (cellEdges d) t s = receiveBit d t (transmitBit s) := by
  have hfall : edge false d t s = .next (transmitBit (recordLevel false s)) := by
    rw [edge_falls h.running h.called h.clockHigh]
    exact actOnEdge_transmit (s := recordLevel false s) h.synchronized
  have hrise : edge true d t (transmitBit (recordLevel false s)) = receiveBit d t (transmitBit (recordLevel true s)) := by
    rw [edge_rises (s := transmitBit (recordLevel false s)) h.running h.called rfl]
    exact actOnEdge_receive (s := transmitBit (recordLevel true s)) h.synchronized
  rw [cellEdges, edges, hfall, andThen_next, edges_singleton, hrise, recordLevel_of_eq h.clockHigh]

/-- A level is merged and the position goes down (rule R114). -/
def State.bitReceived (d : Level) (s : State) : State :=
  { s with
    sync := { s.sync with
      rxAccumulator := mergeBit s.sync.rxAccumulator s.sync.bitPosition d
      bitPosition := s.sync.bitPosition - 1#3 } }

theorem receiveBit_before_last (h : s.sync.bitPosition ≠ 0#3) (d : Level) (t : Instant) :
    receiveBit d t s = .next (s.bitReceived d) :=
  if_neg h

/-- The last bit completes the byte (rule R115). -/
theorem receiveBit_last (h : s.sync.bitPosition = 0#3) (d : Level) (t : Instant) :
    receiveBit d t s = completeByte (mergeBit s.sync.rxAccumulator s.sync.bitPosition d) t (beginFrame s) :=
  if_pos h

theorem bitPosition_pred {position : BitVec 3} (h : position ≠ 0#3) :
    (position - 1#3).toNat + 1 = position.toNat := by
  bv_omega

end Exchange

/-- Settles O43: the falling edge transmits, and the rising edge merges its level before the last bit. -/
theorem bitCellDrivesThenSamples : Obligations.BitCellDrivesThenSamples := by
  intro s d t hrunning hcalled hclock hsync hposition
  have hexchanging : s.start.Exchanging := ⟨hrunning, hcalled, hclock, hsync⟩
  refine ⟨mergeBit s.sync.rxAccumulator s.sync.bitPosition d, s.sync.bitPosition - 1#3,
    mergeBit_getLsbD s.sync.rxAccumulator s.sync.bitPosition d, bitPosition_pred hposition, ?_⟩
  change edges (cellEdges d) t s.start = _
  rw [edges_cell_exchange hexchanging, receiveBit_before_last (s := transmitBit s.start) hposition]
  rfl

section Frame

variable {s u : State} {b : Byte}

/-! ### A byte frame (rule R83, R121) -/

/-- The bits of `b` above position `n` have been received, and no other bit is set. -/
def ReceivedAbove (b : Byte) (n : Nat) (accumulator : Byte) : Prop :=
  ∀ k, accumulator.getLsbD k = (decide (n < k) && b.getLsbD k)

theorem receivedAbove_zero (b : Byte) : ReceivedAbove b 7 0#8 := by
  intro k
  by_cases hk : 7 < k
  · simp [BitVec.getLsbD_of_ge b k hk]
  · simp [hk]

/-- One bit cell before the last receives one more bit. -/
theorem ReceivedAbove.mergeBit {n : Nat} {accumulator : Byte} {position : BitVec 3}
    (h : ReceivedAbove b (n + 1) accumulator) (hposition : position.toNat = n + 1) :
    ReceivedAbove b n (mergeBit accumulator position (b.getLsbD (n + 1))) := by
  intro k
  rw [mergeBit_getLsbD, h k, hposition]
  by_cases hk : k = n + 1
  · simp [hk]
  · have hiff : n + 1 < k ↔ n < k := by omega
    simp [hk, hiff]

/-- The last bit cell receives the byte. -/
theorem ReceivedAbove.mergeBit_last {accumulator : Byte} {position : BitVec 3}
    (h : ReceivedAbove b 0 accumulator) (hposition : position.toNat = 0) :
    Machine.mergeBit accumulator position (b.getLsbD 0) = b := by
  refine BitVec.eq_of_getLsbD_eq fun k _ => ?_
  rw [mergeBit_getLsbD, h k, hposition]
  by_cases hk : k = 0
  · simp [hk]
  · simp [hk, Nat.pos_of_ne_zero hk]

/-- The levels of bits `n` down to 0 of a byte. -/
def bitsDown (v : Byte) (n : Nat) : List Level := (List.range (n + 1)).reverse.map v.getLsbD

theorem bitsDown_zero (v : Byte) : bitsDown v 0 = [v.getLsbD 0] := rfl

theorem bitsDown_succ (v : Byte) (n : Nat) : bitsDown v (n + 1) = v.getLsbD (n + 1) :: bitsDown v n := by
  simp [bitsDown, List.range_succ (n := n + 1)]

theorem msbFirst_eq_bitsDown (v : Byte) : msbFirst 8 v = bitsDown v 7 := rfl

theorem driveFrame_eq_bitsDown (v : Byte) : driveFrame v = (bitsDown v 7).map .driveOut := rfl

/-- What the bit cells of positions `n` down to 0 leave before the completed byte is parsed: the bits of the byte in transmission
driven, and the next frame begun. -/
def State.exchanged (s : State) (n : Nat) : State :=
  { s with
    events := s.events ++ (bitsDown (loadTransmit s.sync).txActive n).map .driveOut
    sync := { loadTransmit s.sync with
      rxAccumulator := 0#8, bitPosition := 7#3, dataOut := .level ((loadTransmit s.sync).txActive.getLsbD 0) } }

theorem loadTransmit_of_ne (y : SyncState) (h : y.bitPosition ≠ 7#3) : loadTransmit y = y := by
  rw [loadTransmit, if_neg h, if_neg h]

theorem exchanged_zero (h : s.sync.bitPosition.toNat = 0) : beginFrame (transmitBit s) = s.exchanged 0 := by
  simp [beginFrame, transmitBit, State.emit, State.exchanged, bitsDown_zero, bitAt, h]

/-- The first of the bit cells loads the byte in transmission, and the later ones find it loaded. -/
theorem exchanged_succ {n : Nat} (h : s.sync.bitPosition.toNat = n + 1) (d : Level) :
    ((transmitBit s).bitReceived d).exchanged n = s.exchanged (n + 1) := by
  have hloaded : s.sync.bitPosition - 1#3 ≠ 7#3 := by
    have := s.sync.bitPosition.isLt
    bv_omega
  rw [State.exchanged, loadTransmit_of_ne _ hloaded]
  simp [State.bitReceived, State.exchanged, bitsDown_succ, bitAt, h]

/-- The rest of a frame from position `n`: the bits down to 0 are driven and received, and the byte goes to `BYTE`. -/
theorem edges_bitsDown {n : Nat} (h : s.Exchanging) (hposition : s.sync.bitPosition.toNat = n)
    (hreceived : ReceivedAbove b n s.sync.rxAccumulator) (t : Instant) :
    edges (levelEdges (bitsDown b n)) t s = completeByte b t (s.exchanged n) := by
  induction n generalizing s with
  | zero =>
    have hlast : s.sync.bitPosition = 0#3 := BitVec.eq_of_toNat_eq hposition
    rw [bitsDown_zero, levelEdges, List.flatMap_singleton, edges_cell_exchange h,
      receiveBit_last (s := transmitBit s) hlast, exchanged_zero hposition]
    exact congrArg (completeByte · t _) (hreceived.mergeBit_last hposition)
  | succ n ih =>
    have hmore : s.sync.bitPosition ≠ 0#3 := fun hzero => by simp [hzero] at hposition
    have hnext : (s.sync.bitPosition - 1#3).toNat = n :=
      Nat.succ_injective ((bitPosition_pred hmore).trans hposition)
    have hagain : ((transmitBit s).bitReceived (b.getLsbD (n + 1))).Exchanging := { h with }
    rw [bitsDown_succ, levelEdges, List.flatMap_cons, edges_append, edges_cell_exchange h,
      receiveBit_before_last (s := transmitBit s) hmore, andThen_next, ← exchanged_succ hposition]
    exact ih hagain hnext (hreceived.mergeBit hposition)

/-- `PARSE` answers a next state outside `PACKET_RECEIVED` and, in `PAYLOAD`, with a target (rule R140). -/
theorem parse_answers (b : Byte) (t : Instant) (hresting : s.parserState ≠ .packetReceived)
    (htarget : s.parserState = .payload → ∃ tag, s.packet.payloadTarget = some tag) : ∃ r, parse b t s = .next r := by
  rw [parse_eq_consume]
  cases hps : s.parserState with
  | payload =>
    obtain ⟨tag, htag⟩ := htarget hps
    obtain hfits | hfull := Nat.lt_or_ge s.packet.payloadIndex.toNat (s.params.capacity tag)
    · exact ⟨_, consumePayload_store htag hfits⟩
    · exact ⟨_, consumePayload_overrun htag hfull⟩
  | packetReceived => exact absurd hps hresting
  | command | compression | lengthLow | lengthHigh | checksumLow | checksumHigh | deviceId | status => exact ⟨_, rfl⟩

/-- `BYTE` goes on where the parser is in a state that the operations keep (rule R220). -/
theorem State.Consistent.completeByte_answers (h : s.Consistent) (hps : u.parserState = s.parserState)
    (hpacket : u.packet = s.packet) (b : Byte) (t : Instant) : ∃ v, completeByte b t u = .next v := by
  obtain ⟨r, hparse⟩ := parse_answers (s := u) b t (hps ▸ h.notResting) fun hpayload => by
    obtain ⟨tag, hcollecting⟩ := h.collecting (hps ▸ hpayload)
    exact ⟨tag, hpacket ▸ hcollecting.target⟩
  exact ⟨_, by rw [completeByte, hparse, andThen_next]⟩

/-- The state in which the byte of a frame is parsed: the byte staged has been transmitted (rule R116). -/
def State.frameDriven (s : State) : State :=
  { s with
    sync := { s.sync with
      txActive := s.nextTransmitted, txStagedValid := false, dataOut := .level (s.nextTransmitted.getLsbD 0) } }

theorem exchanged_frame (h : s.AtFrameStart) :
    s.start.exchanged 7 = s.frameDriven.start.prepend (driveFrame s.nextTransmitted) := by
  have hload : loadTransmit s.sync = { s.sync with txActive := s.nextTransmitted, txStagedValid := false } := by
    simp [loadTransmit, h.position, State.nextTransmitted]
  simp [State.exchanged, State.frameDriven, State.start, State.prepend, hload, driveFrame_eq_bitsDown, h.position,
    h.accumulator]

/-- From the start of a frame, eight bit cells are the `BYTE` of the byte sent, behind the eight bits driven. -/
theorem edges_frame (h : s.AtFrameStart) (b : Byte) (t : Instant) :
    edges (frameEdges b) t s.start
      = mapNext (State.prepend (driveFrame s.nextTransmitted)) (completeByte b t s.frameDriven.start) := by
  have hexchanging : s.start.Exchanging := { h with }
  have hposition : s.start.sync.bitPosition.toNat = 7 := congrArg BitVec.toNat h.position
  have hreceived : ReceivedAbove b 7 s.start.sync.rxAccumulator := h.accumulator.symm ▸ receivedAbove_zero b
  rw [frameEdges, msbFirst_eq_bitsDown, edges_bitsDown hexchanging hposition hreceived, exchanged_frame h,
    prepend_completeByte]

end Frame

/-- Settles O44: the eight bit cells are that `BYTE`, which answers a next state, behind the bits driven. -/
theorem frameExchangesOneByte : Obligations.FrameExchangesOneByte := by
  intro s b t hframe hconsistent x
  obtain ⟨u, hbyte⟩ := hconsistent.completeByte_answers (u := s.frameDriven.start) rfl rfl b t
  have hresult : u.result = none := completeByte_result hbyte
  refine ⟨u, hbyte, (edges_frame hframe b t).trans ?_⟩
  rw [hbyte, mapNext_next, ← hresult]
  rfl

section Scan

variable {s : State} {d : Level}

/-! ### A sequence of bit cells while scanning (rule R84, R113, R122) -/

/-- A bit cell while scanning shifts its level in: the falling edge is silent. -/
theorem edges_cell_scan (h : s.Scanning) (d : Level) (t : Instant) :
    edges (cellEdges d) t s = .next (preambleScan d s) := by
  have hfall : edge false d t s = .next (recordLevel false s) := by
    rw [edge_falls h.running h.called h.clockHigh]
    exact actOnEdge_silent (s := recordLevel false s) h.scanning
  have hrise : edge true d t (recordLevel false s) = .next (preambleScan d (recordLevel true s)) := by
    rw [edge_rises (s := recordLevel false s) h.running h.called rfl]
    exact actOnEdge_scan (s := recordLevel true s) h.scanning
  rw [cellEdges, edges, hfall, andThen_next, edges_singleton, hrise, recordLevel_of_eq h.clockHigh]

/-- The register with another value. -/
def State.withRegister (s : State) (r : Word16) : State := { s with sync := { s.sync with syncShiftRegister := r } }

theorem preambleScan_of_ne (h : shiftIn s.sync.syncShiftRegister d ≠ s.params.syncWord) :
    preambleScan d s = s.withRegister (shiftIn s.sync.syncShiftRegister d) :=
  if_neg h

theorem preambleScan_of_eq (h : shiftIn s.sync.syncShiftRegister d = s.params.syncWord) :
    preambleScan d s = { s with
      sync := { s.sync with syncShiftRegister := s.params.syncWord, synchronized := true, bitPosition := 7#3 } } := by
  rw [preambleScan, if_pos h, h]

/-- Levels of which no first part completes the sync word leave the streamer scanning. -/
theorem edges_scan_of_no_match {ds : List Level} (h : s.Scanning)
    (hnone : ∀ k, 1 ≤ k → k ≤ ds.length →
      (ds.take k).foldl shiftIn s.sync.syncShiftRegister ≠ s.params.syncWord) (t : Instant) :
    edges (levelEdges ds) t s = .next (s.withRegister (ds.foldl shiftIn s.sync.syncShiftRegister)) := by
  induction ds generalizing s with
  | nil => rfl
  | cons d rest ih =>
    have hfirst : shiftIn s.sync.syncShiftRegister d ≠ s.params.syncWord := hnone 1 le_rfl (by simp)
    rw [levelEdges, List.flatMap_cons, edges_append, edges_cell_scan h, preambleScan_of_ne hfirst, andThen_next]
    refine ih ⟨h.running, h.called, h.clockHigh, h.scanning⟩ fun k hk hlength => ?_
    exact hnone (k + 1) (by omega) (by simpa using hlength)

/-- The level that completes the sync word for the first time synchronizes. -/
theorem edges_scan_of_match {ds : List Level} (h : s.Scanning)
    (hnone : ∀ k, 1 ≤ k → k ≤ ds.length →
      (ds.take k).foldl shiftIn s.sync.syncShiftRegister ≠ s.params.syncWord)
    (hmatch : (ds ++ [d]).foldl shiftIn s.sync.syncShiftRegister = s.params.syncWord) (t : Instant) :
    edges (levelEdges (ds ++ [d])) t s = .next { s with
      sync := { s.sync with syncShiftRegister := s.params.syncWord, synchronized := true, bitPosition := 7#3 } } := by
  have hlater : (s.withRegister (ds.foldl shiftIn s.sync.syncShiftRegister)).Scanning := { h with }
  have hbefore := edges_scan_of_no_match h hnone t
  rw [List.foldl_append, List.foldl_cons, List.foldl_nil] at hmatch
  rw [levelEdges] at hbefore ⊢
  rw [List.flatMap_append, edges_append, hbefore, andThen_next, List.flatMap_singleton, edges_cell_scan hlater]
  exact congrArg Host.Outcome.next (preambleScan_of_eq hmatch)

/-! ### The register as a number (rule R24, R122) -/

theorem bitsValue_append_singleton (ds : List Level) (d : Level) : bitsValue (ds ++ [d]) = 2 * bitsValue ds + d.toNat := by
  simp [bitsValue]

/-- Levels shifted into a register: it is doubled once a level, and their binary value is added, modulo 2^16. -/
theorem foldl_shiftIn_eq_ofNat (r : Word16) (ds : List Level) :
    ds.foldl shiftIn r = BitVec.ofNat 16 (r.toNat * 2 ^ ds.length + bitsValue ds) := by
  induction ds using List.reverseRecOn with
  | nil => simp [bitsValue]
  | append_singleton ds d ih =>
    rw [List.foldl_append, List.foldl_cons, List.foldl_nil, ih, shiftIn_eq_ofNat, bitsValue_append_singleton]
    apply BitVec.eq_of_toNat_eq
    simp only [BitVec.toNat_ofNat, List.length_append, List.length_singleton, pow_succ, ← mul_assoc]
    omega

/-- The first `k` levels of a value, as a number, are its `k` highest bits. -/
theorem bitsValue_take_msbFirst {n k : Nat} (v : BitVec n) (hk : k ≤ n) :
    bitsValue ((msbFirst n v).take k) = v.toNat / 2 ^ (n - k) := by
  rw [msbFirst, ← List.map_take, List.take_range, Nat.min_eq_left hk]
  induction k with
  | zero => simp [bitsValue, Nat.div_eq_of_lt v.isLt]
  | succ k ih =>
    have hbit : (v.getMsbD k).toNat = v.toNat / 2 ^ (n - (k + 1)) % 2 := by
      rw [BitVec.getMsbD_eq_getLsbD, ← BitVec.testBit_toNat, decide_eq_true (by omega), Bool.true_and,
        Nat.toNat_testBit, show n - 1 - k = n - (k + 1) by omega]
    have hhalf : v.toNat / 2 ^ (n - k) = v.toNat / 2 ^ (n - (k + 1)) / 2 := by
      rw [Nat.div_div_eq_div_mul, ← pow_succ, show n - (k + 1) + 1 = n - k by omega]
    rw [List.range_succ, List.map_append, List.map_singleton, bitsValue_append_singleton, ih (by omega), hbit, hhalf]
    omega

/-- The register after the first `k` bit cells of the sync word. -/
theorem foldl_shiftIn_take_msbFirst {k : Nat} (r w : Word16) (hk : k ≤ 16) :
    ((msbFirst 16 w).take k).foldl shiftIn r = BitVec.ofNat 16 (r.toNat * 2 ^ k + w.toNat / 2 ^ (16 - k)) := by
  rw [foldl_shiftIn_eq_ofNat, bitsValue_take_msbFirst w hk]
  simp [msbFirst, Nat.min_eq_left hk]

/-- Sixteen levels replace the register: the word has been shifted in. -/
theorem foldl_shiftIn_msbFirst (r w : Word16) : (msbFirst 16 w).foldl shiftIn r = w := by
  have hword := foldl_shiftIn_take_msbFirst r w le_rfl
  rw [List.take_of_length_le (by simp [msbFirst])] at hword
  rw [hword]
  apply BitVec.eq_of_toNat_eq
  have hw := w.isLt
  simp only [BitVec.toNat_ofNat, Nat.sub_self, pow_zero, Nat.div_one]
  omega

end Scan

/-- Settles O46: the first fifteen bit cells hold no match, and the sixteenth completes the word whatever the register held. -/
theorem preambleSynchronizes : Obligations.PreambleSynchronizes := by
  intro s t hscanning hnone
  have hsplit : msbFirst 16 s.params.syncWord =
      (msbFirst 16 s.params.syncWord).take 15 ++ [s.params.syncWord.getMsbD 15] := rfl
  have hstart : s.start.Scanning := { hscanning with }
  change edges (levelEdges (msbFirst 16 s.params.syncWord)) t s.start = _
  rw [hsplit]
  refine edges_scan_of_match hstart (fun k hk hlength => ?_) ?_ t
  · have hk15 : k ≤ 15 := by simpa [msbFirst] using hlength
    rw [List.take_take, Nat.min_eq_left hk15, foldl_shiftIn_take_msbFirst _ _ (by omega)]
    exact hnone k hk (by omega)
  · rw [← hsplit]
    exact foldl_shiftIn_msbFirst _ _

end Sys2Proof.Machine

/-!
PROOFS. The statements on the streamer (40_streamer.md): one law for each way an `EDGE` goes, each as the whole next state, and the
synchronisation law over the bit cells of any list of levels.
-/
namespace Sys2Proof.Machine

section StreamerEdges

variable {s : State} {c d : Level} {t : Instant}

/-! ### The edges that act on nothing (rule R111, R112) -/

/-- The first call records its level (rule R111). -/
theorem edge_first_call (hrunning : s.halted = false) (hfirst : s.sync.initialized = false) :
    edge c d t s = .next { s with sync := { s.sync with initialized := true, previousClockLevel := c } } := by
  simp [edge, hrunning, hfirst]

/-- An unchanged level does nothing (rule R112), in a halted core too (rule R216). -/
theorem edge_unchanged (hcalled : s.sync.initialized = true) (hc : c = s.sync.previousClockLevel) :
    edge c d t s = .next s := by
  cases hhalted : s.halted <;> simp [edge, hhalted, hcalled, hc]

/-! ### The four edges that act (rule R113 to rule R117) -/

/-- A rising edge while not synchronized scans. -/
theorem edge_scans (hrunning : s.halted = false) (hcalled : s.sync.initialized = true)
    (hclock : s.sync.previousClockLevel = false) (hsync : s.sync.synchronized = false) :
    edge true d t s = .next (preambleScan d (recordLevel true s)) :=
  (edge_rises hrunning hcalled hclock d t).trans (actOnEdge_scan (s := recordLevel true s) hsync)

/-- A rising edge while synchronized receives. -/
theorem edge_receives (hrunning : s.halted = false) (hcalled : s.sync.initialized = true)
    (hclock : s.sync.previousClockLevel = false) (hsync : s.sync.synchronized = true) :
    edge true d t s = receiveBit d t (recordLevel true s) :=
  (edge_rises hrunning hcalled hclock d t).trans (actOnEdge_receive (s := recordLevel true s) hsync)

/-- A falling edge while synchronized transmits. -/
theorem edge_transmits (hrunning : s.halted = false) (hcalled : s.sync.initialized = true)
    (hclock : s.sync.previousClockLevel = true) (hsync : s.sync.synchronized = true) :
    edge false d t s = .next (transmitBit (recordLevel false s)) :=
  (edge_falls hrunning hcalled hclock d t).trans (actOnEdge_transmit (s := recordLevel false s) hsync)

/-- A falling edge while not synchronized only records its level. -/
theorem edge_silent (hrunning : s.halted = false) (hcalled : s.sync.initialized = true)
    (hclock : s.sync.previousClockLevel = true) (hsync : s.sync.synchronized = false) :
    edge false d t s = .next (recordLevel false s) :=
  (edge_falls hrunning hcalled hclock d t).trans (actOnEdge_silent (s := recordLevel false s) hsync)

/-! ### The sync register over a run of bit cells (rule R24, R122) -/

/-- From the zero register, the register holds the last sixteen levels. -/
theorem foldl_shiftIn_zero (ds : List Level) : ds.foldl shiftIn 0#16 = lastSixteen ds := by
  simp [foldl_shiftIn_eq_ofNat, lastSixteen]

/-- Bit cells from the pre-sync state, none of which completes the sync word, leave the last sixteen levels in the register. -/
theorem runAll_cells_scan {ds : List Level} (h : s.Scanning) (hzero : s.sync.syncShiftRegister = 0#16)
    (hnone : ∀ k, 1 ≤ k → k ≤ ds.length → lastSixteen (ds.take k) ≠ s.params.syncWord) (t : Instant) :
    ∃ v, runAll (cells ds t) s = .next v ∧ v.sync = { s.sync with syncShiftRegister := lastSixteen ds } ∧ v.events = [] := by
  by_cases hempty : ds = []
  · subst hempty
    refine ⟨{ s with events := [] }, rfl, ?_, rfl⟩
    have hregister : s.sync.syncShiftRegister = lastSixteen [] := hzero
    rw [← hregister]
  · have hscan := edges_scan_of_no_match (s := s.start) (ds := ds) { h with }
      (by simpa [hzero, foldl_shiftIn_zero] using hnone) t
    rw [State.start_sync, hzero, foldl_shiftIn_zero] at hscan
    exact ⟨_, (runAll_cells_eq_edges hempty t s).trans hscan, rfl, rfl⟩

/-- The bit cell that completes the sync word for the first time synchronizes. -/
theorem runAll_cells_synchronize {ds : List Level} (h : s.Scanning) (hzero : s.sync.syncShiftRegister = 0#16)
    (hnone : ∀ k, 1 ≤ k → k ≤ ds.length → lastSixteen (ds.take k) ≠ s.params.syncWord)
    (hmatch : lastSixteen (ds ++ [d]) = s.params.syncWord) (t : Instant) :
    runAll (cells (ds ++ [d]) t) s = .next { s.start with
      sync := { s.sync with syncShiftRegister := s.params.syncWord, synchronized := true, bitPosition := 7#3 } } := by
  rw [runAll_cells_eq_edges (List.concat_ne_nil d ds) t s]
  refine edges_scan_of_match (s := s.start) { h with } ?_ ?_ t
  · simpa [hzero, foldl_shiftIn_zero] using hnone
  · rw [State.start_sync, hzero, foldl_shiftIn_zero]
    exact hmatch

end StreamerEdges

/-- Settles O11: the edge scans, and what the register then holds is the number of the statement. -/
theorem risingEdgeScansPreamble : Obligations.RisingEdgeScansPreamble := by
  intro s d t hrunning hcalled hclock hsync register
  have hregister : shiftIn (recordLevel true s.start).sync.syncShiftRegister d = register := shiftIn_eq_ofNat _ d
  refine (edge_scans (s := s.start) hrunning hcalled hclock hsync).trans (congrArg Host.Outcome.next ?_)
  by_cases hmatch : register = s.params.syncWord
  · rw [if_pos hmatch, preambleScan_of_eq (s := recordLevel true s.start) (hregister.trans hmatch), hmatch]
    rfl
  · rw [if_neg hmatch, preambleScan_of_ne (s := recordLevel true s.start) (hregister.trans_ne hmatch), hregister]
    rfl

/-- Settles O14: before the last bit, the accumulator after the edge is the merged one. -/
theorem risingEdgeReceivesBit : Obligations.RisingEdgeReceivesBit := by
  intro s d t hrunning hcalled hclock hsync hposition
  refine ⟨mergeBit s.sync.rxAccumulator s.sync.bitPosition d, s.sync.bitPosition - 1#3,
    mergeBit_getLsbD s.sync.rxAccumulator s.sync.bitPosition d, bitPosition_pred hposition, ?_⟩
  exact (edge_receives (s := s.start) hrunning hcalled hclock hsync).trans
    (receiveBit_before_last (s := recordLevel true s.start) hposition d t)

/-- Settles O15: the merged byte goes to `BYTE`, in the state that `BYTE` itself would start from. -/
theorem risingEdgeCompletesByte : Obligations.RisingEdgeCompletesByte := by
  intro s d t hrunning hcalled hclock hsync hposition
  refine ⟨mergeBit s.sync.rxAccumulator s.sync.bitPosition d, fun k => ?_, ?_⟩
  · rw [mergeBit_getLsbD, hposition]
    rfl
  · exact (edge_receives (s := s.start) hrunning hcalled hclock hsync).trans
      (receiveBit_last (s := recordLevel true s.start) hposition d t)

/-- Settles O45: the cells without a match scan, and the first match synchronizes. -/
theorem firstSyncWordSynchronizes : Obligations.FirstSyncWordSynchronizes := by
  intro s ds t hscanning hzero hnone
  obtain ⟨v, hrun, hv, hevents⟩ := runAll_cells_scan hscanning hzero hnone t
  exact ⟨v, hrun, hv, hevents, fun d hmatch =>
    ⟨_, runAll_cells_synchronize hscanning hzero hnone hmatch t, rfl, rfl⟩⟩

/-- Settles O9: the law of the first call, from the start of an operation. -/
theorem firstEdgeOnlyRecords : Obligations.FirstEdgeOnlyRecords :=
  fun s _ _ _ hrunning hfirst => edge_first_call (s := s.start) hrunning hfirst

/-- Settles O10: the law of an unchanged level, from the start of an operation. -/
theorem unchangedLevelIsNoOp : Obligations.UnchangedLevelIsNoOp :=
  fun s _ _ _ hcalled hc => edge_unchanged (s := s.start) hcalled hc

/-- Settles O12: the edge records its level. -/
theorem fallingEdgeUnsynchronizedIsSilent : Obligations.FallingEdgeUnsynchronizedIsSilent :=
  fun s _ _ hrunning hcalled hclock hsync => edge_silent (s := s.start) hrunning hcalled hclock hsync

/-- Settles O13: the edge loads and drives, with no event before it. -/
theorem fallingEdgeTransmits : Obligations.FallingEdgeTransmits :=
  fun s _ _ hrunning hcalled hclock hsync => edge_transmits (s := s.start) hrunning hcalled hclock hsync

/-- Settles O17: `STAGE` is the shared assignment, from the start of an operation. -/
theorem stageSetsNextByte : Obligations.StageSetsNextByte := fun _ _ => rfl

end Sys2Proof.Machine

/-!
PROOFS. The statements on the parser (41_parser.md): `PARSE` and the byte slots one by one (rule R140 to rule R157), and the
packets of the five commands from the first frame to the last (rule R163).
-/
namespace Sys2Proof.Machine

section Slots

variable {s : State} {b : Byte} {t : Instant} {ps : ParserState}

/-! ### The rows of the parser (rule R140)

`PARSE` and the slot rows are `consume` from the start of an operation, with the event as the result. -/

/-- `PARSE` runs the slot of its parser state. -/
theorem exec_parse (s : State) (b : Byte) (t : Instant) :
    exec (.parse b t) s = mapNext answerEvent (consume s.parserState b t s.start) := by
  change andThen (parse b t s.start) _ = _
  rw [parse_eq_consume]
  rfl

theorem exec_parse_of_state (h : s.parserState = ps) (b : Byte) (t : Instant) :
    exec (.parse b t) s = mapNext answerEvent (consume ps b t s.start) := by
  rw [exec_parse, h]

/-- The sum after the first byte of a packet (rule R142). -/
theorem addToChecksum_zero (b : Byte) : addToChecksum 0#16 b = BitVec.ofNat 16 b.toNat := by
  simp [addToChecksum_eq_ofNat]

/-! ### The length field (rule R145) -/

/-- A zero length skips `PAYLOAD`. -/
theorem applyLengthPolicy_of_zero (h : s.packet.dataLength = 0#16) : applyLengthPolicy s = enterChecksumLow s :=
  if_pos h

/-- A non-zero length with a target enters `PAYLOAD`. -/
theorem applyLengthPolicy_of_target {tag : BufferTag} (h : s.packet.dataLength ≠ 0#16)
    (htag : targetOf s.packet.command = some tag) : applyLengthPolicy s = enterPayload s :=
  (if_neg h).trans (if_neg (by simp [htag]))

/-- The row stores the high byte, and the length-field policy applies. -/
theorem exec_slotLengthHigh (s : State) (b : Byte) :
    exec (.slotLengthHigh b) s = .next (answerEvent (applyLengthPolicy (storeLengthHigh b s.start), .none)) := rfl

/-- The commands with a payload target (rule R147). -/
theorem targetOf_eq_none_iff (c : Command) : targetOf c = none ↔ ¬ (c = .data ∨ c = .print) := by
  cases c <;> decide

/-! ### The payload (rule R148) -/

/-- The byte that completes the payload. -/
theorem leavePayload_complete
    (h : s.packet.dataLength.toNat + s.params.payloadExtra.val ≤ s.packet.payloadIndex.toNat) :
    leavePayload s = enterChecksumLow s :=
  if_pos (decide_eq_true h)

/-- A byte before the last one. -/
theorem leavePayload_incomplete
    (h : s.packet.payloadIndex.toNat < s.packet.dataLength.toNat + s.params.payloadExtra.val) :
    leavePayload s = s :=
  if_neg (by simpa [payloadComplete] using h)

theorem storePayload_params (tag : BufferTag) (b : Byte) (s : State) : (storePayload tag b s).params = s.params :=
  s.memWrite_params tag _ b

theorem storePayload_parserState (tag : BufferTag) (b : Byte) (s : State) :
    (storePayload tag b s).parserState = s.parserState :=
  s.memWrite_parserState tag _ b

/-- The slot row stores the byte where it fits. -/
theorem exec_slotPayload_store {tag : BufferTag} (htag : s.packet.payloadTarget = some tag)
    (hcap : s.packet.payloadIndex.toNat < s.params.capacity tag) (b : Byte) :
    exec (.slotPayload b) s = .next (answerEvent (leavePayload (storePayload tag b s.start), .none)) := by
  change mapNext answerEvent (consumePayload b s.start) = _
  rw [consumePayload_store (s := s.start) htag hcap, mapNext_next]

/-- A stored byte writes a buffer, the index and the sum, and nothing else. -/
theorem storePayload_frame (tag : BufferTag) (b : Byte) (s : State) :
    storePayload tag b s = { s with
      settingsBuffer := (storePayload tag b s).settingsBuffer, imageBuffer := (storePayload tag b s).imageBuffer,
      packet := { s.packet with
        checksumComputed := addToChecksum s.packet.checksumComputed b
        payloadIndex := s.packet.payloadIndex + 1#17 } } := by
  cases tag <;> rfl

/-! ### The checksum field (rule R150, rule R151) -/

/-- The field is assembled from its two bytes, whatever it held. -/
theorem withHighByte_withLowByte (field w : Word16) :
    withHighByte (withLowByte field (lowByte w)) (highByte w) = w := by
  apply BitVec.eq_of_toNat_eq
  rw [withHighByte_toNat, withLowByte_toNat, lowByte_toNat, highByte_toNat]
  omega

/-! ### A violation (rule R141, rule R214, rule R216) -/

/-- Where a violation leaves the parser. -/
theorem raiseViolation_parserState (s : State) (cause : ViolationCause) :
    (s.raiseViolation cause).parserState
      = if s.params.violationPolicy = .resync then .command else s.parserState := by
  obtain ⟨hpolicy, heq⟩ | ⟨hpolicy, heq⟩ := raiseViolation_cases s cause <;> rw [heq, hpolicy] <;> rfl

theorem raiseViolation_packet (s : State) (cause : ViolationCause) : (s.raiseViolation cause).packet = s.packet := by
  obtain ⟨-, heq⟩ | ⟨-, heq⟩ := raiseViolation_cases s cause <;> rw [heq] <;> rfl

/-- Where the length-field policy leaves the parser (rule R145). -/
theorem applyLengthPolicy_parserState (hps : s.parserState = ps) :
    if (applyLengthPolicy s).packet.dataLength = 0#16 then (applyLengthPolicy s).parserState = .checksumLow
    else if s.packet.command = .data ∨ s.packet.command = .print then (applyLengthPolicy s).parserState = .payload
    else (applyLengthPolicy s).parserState = if s.params.violationPolicy = .resync then .command else ps := by
  obtain ⟨hzero, heq⟩ | ⟨hne, hnone, heq⟩ | ⟨tag, hne, htag, heq⟩ := applyLengthPolicy_cases s <;> rw [heq]
  · exact (if_pos hzero).mpr rfl
  · rw [raiseViolation_packet, if_neg hne, if_neg ((targetOf_eq_none_iff _).1 hnone), raiseViolation_parserState, hps]
  · have hcommand : s.packet.command = .data ∨ s.packet.command = .print :=
      not_not.1 fun hnot => by simp [(targetOf_eq_none_iff _).2 hnot] at htag
    rw [if_neg (show (enterPayload s).packet.dataLength ≠ 0#16 from hne), if_pos hcommand]
    rfl

/-- Where a payload byte leaves the parser (rule R148). -/
theorem consumePayload_parserState {tag : BufferTag} (hps : s.parserState = .payload)
    (htag : s.packet.payloadTarget = some tag) (b : Byte) :
    ∃ r, consumePayload b s = .next r
      ∧ if payloadCapacity s.params s.packet.payloadTarget ≤ s.packet.payloadIndex.toNat then
          r.1.parserState = if s.params.violationPolicy = .resync then .command else .payload
        else if r.1.packet.payloadIndex.toNat < s.packet.dataLength.toNat + s.params.payloadExtra.val then
          r.1.parserState = .payload
        else r.1.parserState = .checksumLow := by
  rw [htag, payloadCapacity_target]
  obtain hfull | hfits := le_or_gt (s.params.capacity tag) s.packet.payloadIndex.toNat
  · exact ⟨_, consumePayload_overrun htag hfull, by rw [if_pos hfull, raiseViolation_parserState, hps]⟩
  · refine ⟨_, consumePayload_store htag hfits, ?_⟩
    rw [if_neg (Nat.not_le.2 hfits)]
    by_cases hmore : (s.packet.payloadIndex + 1#17).toNat < s.packet.dataLength.toNat + s.params.payloadExtra.val
    · rw [leavePayload_incomplete (s := storePayload tag b s) (by rwa [storePayload_params])]
      exact (if_pos hmore).mpr ((storePayload_parserState tag b s).trans hps)
    · rw [leavePayload_complete (s := storePayload tag b s) (by rw [storePayload_params]; exact Nat.le_of_not_lt hmore)]
      exact (if_neg hmore).mpr rfl

/-! ### The entry of `STATUS` (rule R154) -/

/-- The four flags, each as one expression of the command and its old value. -/
theorem statusEntryFlags_eq (k : Packet) (f : PrinterStatus) :
    statusEntryFlags k f =
      { checksumError := decide (k.checksumComputed ≠ k.checksumReceived)
        unprocessedDataPresent := decide (k.command = .data) || (f.unprocessedDataPresent && !decide (k.command = .print))
        printBufferFull := decide (k.command = .print) || f.printBufferFull
        printerBusy := decide (k.command = .print) || f.printerBusy } := by
  have herror : checksumDiffers k = decide (k.checksumComputed ≠ k.checksumReceived) := by
    simp [checksumDiffers, bne, beq_eq_decide]
  unfold statusEntryFlags
  rw [← herror]
  cases k.command <;> simp

/-- The deadline is armed on `PRINT` only. -/
theorem statusEntryDeadline_eq (p : Params) (c : Command) (t : Instant) (old : Option Instant) :
    statusEntryDeadline p c t old = if c = .print then some (t + p.pretendPrintDuration) else old := by
  cases c <;> rfl

end Slots

/-- Settles O21: the length field is the number of the statement, and the command selects the target (rule R147). -/
theorem lengthFieldSelectsNextState : Obligations.LengthFieldSelectsNextState := by
  intro s b length hlength sum
  have hfield : withHighByte s.packet.dataLength b = length :=
    BitVec.eq_of_toNat_eq ((withHighByte_toNat _ _).trans hlength.symm)
  have hsum : addToChecksum s.packet.checksumComputed b = sum := addToChecksum_eq_ofNat _ b
  have hpayload {tag : BufferTag} (hne : length ≠ 0#16) (htag : targetOf s.packet.command = some tag) :
      applyLengthPolicy (storeLengthHigh b s.start) = enterPayload (storeLengthHigh b s.start) :=
    applyLengthPolicy_of_target (s := storeLengthHigh b s.start) (hfield.trans_ne hne) htag
  refine ⟨fun hzero => ?_, fun hne hcommand => ?_, fun hne hcommand => ?_⟩
  · rw [exec_slotLengthHigh, applyLengthPolicy_of_zero (s := storeLengthHigh b s.start) (hfield.trans hzero), ← hfield,
      ← hsum]
    rfl
  · have htag : targetOf s.packet.command = some .image := by rw [hcommand]; rfl
    rw [exec_slotLengthHigh, hpayload hne htag, ← hfield, ← hsum, ← htag]
    rfl
  · have htag : targetOf s.packet.command = some .settings := by rw [hcommand]; rfl
    rw [exec_slotLengthHigh, hpayload hne htag, ← hfield, ← hsum, ← htag]
    rfl

/-- Settles O23: the write is the one of `MemWrite`, and the end test compares the index counted up. -/
theorem payloadByteStored : Obligations.PayloadByteStored := by
  intro s b tag htag hcap hindex off complete
  have hnext : (s.packet.payloadIndex + 1#17).toNat = off + 1 := payloadIndex_succ hindex
  have hcount : s.packet.payloadIndex + 1#17 = BitVec.ofNat 17 (off + 1) := by
    rw [← hnext, BitVec.ofNat_toNat, BitVec.setWidth_eq]
  have hmemory := leavePayload_sameMemory (storePayload tag b s.start)
  refine ⟨_, exec_slotPayload_store htag hcap b, ?_, fun tag' off' hother => ?_, ?_⟩
  · exact (hmemory tag off).trans (s.start.memRead_memWrite_same tag off b)
  · exact (hmemory tag' off').trans (s.start.memRead_memWrite_other tag tag' off off' b hother)
  · have hsum := addToChecksum_eq_ofNat s.packet.checksumComputed b
    by_cases hcomplete : complete
    · have hleave : leavePayload (storePayload tag b s.start) = enterChecksumLow (storePayload tag b s.start) :=
        leavePayload_complete (by rw [storePayload_params]; exact hcomplete.trans_eq hnext.symm)
      rw [hleave, storePayload_frame, if_pos hcomplete, if_pos hcomplete, ← hcount, ← hsum]
      rfl
    · have hleave : leavePayload (storePayload tag b s.start) = storePayload tag b s.start :=
        leavePayload_incomplete (by rw [storePayload_params]; exact hnext.trans_lt (Nat.lt_of_not_le hcomplete))
      rw [hleave, storePayload_frame, if_neg hcomplete, if_neg hcomplete, ← hcount, ← hsum]
      rfl

/-- Settles O31: by parser state; `LENGTH_HIGH` by the length-field policy, `PAYLOAD` by whether the byte fits. -/
theorem parserStateSequence : Obligations.ParserStateSequence := by
  intro s b t hresting hpayload
  cases hps : s.parserState with
  | lengthHigh =>
    exact ⟨_, exec_parse_of_state hps b t, applyLengthPolicy_parserState (s := storeLengthHigh b s.start) hps⟩
  | payload =>
    obtain ⟨htarget, -⟩ := hpayload hps
    obtain ⟨tag, htag⟩ := Option.ne_none_iff_exists'.1 htarget
    obtain ⟨r, hr, hstate⟩ := consumePayload_parserState (s := s.start) hps htag b
    exact ⟨_, (exec_parse_of_state hps b t).trans (congrArg (mapNext answerEvent) hr), hstate⟩
  | packetReceived => exact absurd hps hresting
  | command | compression | lengthLow | checksumLow | checksumHigh | deviceId | status =>
    exact ⟨_, exec_parse_of_state hps b t, rfl⟩

/-- Settles O18: each row of a slot is `consume` at its state. -/
theorem parseIsTheSlotOfItsState : Obligations.ParseIsTheSlotOfItsState := by
  intro s b t
  exact ⟨(exec_parse_of_state · b t), (exec_parse_of_state · b t), (exec_parse_of_state · b t),
    (exec_parse_of_state · b t), (exec_parse_of_state · b t), (exec_parse_of_state · b t), (exec_parse_of_state · b t),
    (exec_parse_of_state · b t), (exec_parse_of_state · b t), (exec_parse_of_state · b t)⟩

/-- Settles O19: the slot's own assignments, with the sum as a number. -/
theorem commandByteStartsPacket : Obligations.CommandByteStartsPacket := by
  intro s b
  rw [← addToChecksum_zero]
  rfl

/-- Settles O20: the slots' own assignments, with the sums and the length as numbers. -/
theorem headerBytesStoredAndSummed : Obligations.HeaderBytesStoredAndSummed := by
  intro s b
  rw [← addToChecksum_eq_ofNat]
  exact ⟨rfl, withLowByte s.packet.dataLength b, withLowByte_toNat _ b, rfl⟩

/-- Settles O26: the slots' own assignments, with the two halves of the field as numbers. -/
theorem checksumFieldAndAcknowledgement : Obligations.ChecksumFieldAndAcknowledgement := fun s b =>
  ⟨withLowByte s.packet.checksumReceived b, withHighByte s.packet.checksumReceived b, withLowByte_toNat _ b,
    withHighByte_toNat _ b, rfl, rfl⟩

/-- Settles O27: the flags and the deadline of the entry action, and the status byte of those flags. -/
theorem statusEntryUpdatesPrinterStatus : Obligations.StatusEntryUpdatesPrinterStatus := by
  intro s b t isData isPrint e u f y
  have hflags : statusEntryFlags s.packet s.printer = ⟨e, u, f, y⟩ := statusEntryFlags_eq s.packet s.printer
  have hdeadline := statusEntryDeadline_eq s.params s.packet.command t s.pretendPrintDeadline
  have hrow : exec (.slotDeviceId b t) s = .next (answerEvent (enterStatus t s.start)) := rfl
  rw [hrow, enterStatus, State.start_packet, State.start_printer, hflags, State.start_params,
    State.start_pretendPrintDeadline, hdeadline]
  simp only [isPrint, decide_eq_true_eq]
  rfl

/-- Settles O28: the report and the restart are the slot's own assignments. -/
theorem statusSlotRestartsParser : Obligations.StatusSlotRestartsParser := fun _ _ => rfl

end Sys2Proof.Machine

namespace Sys2Proof.Machine

section Frames

variable {s : State} {b : Byte} {t : Instant} {ps : ParserState}

/-! ### A frame inside a packet (rule R83, rule R86)

`edges_frame` speaks of a frame that begins an operation; the frames of a packet follow one another in one operation, so each
finds the events of those before it. -/

/-- The state in which the byte of a frame is parsed: the byte staged has been transmitted, and its bits reported. -/
def State.frameExchanged (s : State) : State :=
  { s.frameDriven with events := s.events ++ driveFrame s.nextTransmitted }

theorem exchanged_eq_frameExchanged (h : s.AtFrameStart) : s.exchanged 7 = s.frameExchanged := by
  have hstart := congrArg (fun u : State => { u with events := s.events ++ u.events, result := s.result }) (exchanged_frame h)
  simpa [State.exchanged, State.frameExchanged, State.frameDriven, State.prepend, State.start] using hstart

/-- A frame is the `BYTE` of the byte sent, once the frame has been exchanged. -/
theorem edges_frame_byte (h : s.AtFrameStart) (b : Byte) (t : Instant) :
    edges (frameEdges b) t s = completeByte b t s.frameExchanged := by
  have hposition : s.sync.bitPosition.toNat = 7 := congrArg BitVec.toNat h.position
  have hreceived : ReceivedAbove b 7 s.sync.rxAccumulator := h.accumulator.symm ▸ receivedAbove_zero b
  rw [frameEdges, msbFirst_eq_bitsDown, edges_bitsDown { h with } hposition hreceived, exchanged_eq_frameExchanged h]

/-- A frame, by the slot of the parser state that it is received in. -/
theorem edges_frame_slot (h : s.AtFrameStart) (hps : s.parserState = ps) {r : State × ParserEvent}
    (hslot : consume ps b t s.frameExchanged = .next r) :
    edges (frameEdges b) t s = .next (pushDeadline t (dispatchEvent r)) := by
  have hparse : parse b t s.frameExchanged = .next r := (parse_eq_consume b t s.frameExchanged).trans (hps ▸ hslot)
  rw [edges_frame_byte h, completeByte, hparse, andThen_next]

/-- The frames of a byte sequence, one after the other. -/
theorem edges_sendEdges_cons (b : Byte) (bs : List Byte) (t : Instant) (s : State) :
    edges (sendEdges (b :: bs)) t s = andThen (edges (frameEdges b) t s) (edges (sendEdges bs) t) := by
  rw [sendEdges, List.flatMap_cons, edges_append]
  rfl

theorem edges_sendEdges_append (bs cs : List Byte) (t : Instant) (s : State) :
    edges (sendEdges (bs ++ cs)) t s = andThen (edges (sendEdges bs) t s) (edges (sendEdges cs) t) := by
  rw [sendEdges, List.flatMap_append, edges_append]
  rfl

/-! ### The frames in which nothing is transmitted (rule R116: "idle transmits zero bits") -/

/-- A frame begins, and no byte waits to be transmitted. -/
structure State.AtIdleFrame (s : State) : Prop extends State.AtFrameStart s where
  nothingStaged : s.sync.txStagedValid = false

/-- What `n` silent frames at `t` leave when the parser is then in `ps` with the registers `k`: zeros driven, the deadline
pushed. -/
def State.received (k : Packet) (ps : ParserState) (n : Nat) (t : Instant) (s : State) : State :=
  { s with
    sync := { s.sync with txActive := 0#8, txStagedValid := false, dataOut := .level false }
    parserState := ps
    packet := k
    timeoutDeadline := t + s.params.timeoutWindow
    events := s.events ++ driveIdle n }

theorem driveIdle_add (m n : Nat) : driveIdle (m + n) = driveIdle m ++ driveIdle n := by
  rw [driveIdle, Nat.mul_add, ← List.replicate_append_replicate]
  rfl

theorem State.received_received (k k' : Packet) (ps ps' : ParserState) (m n : Nat) (t : Instant) (s : State) :
    (s.received k ps m t).received k' ps' n t = s.received k' ps' (m + n) t := by
  simp [State.received, driveIdle_add]

theorem State.AtIdleFrame.received (h : s.AtIdleFrame) (k : Packet) (ps : ParserState) (n : Nat) (t : Instant) :
    (s.received k ps n t).AtIdleFrame := { h with nothingStaged := rfl }

theorem State.AtIdleFrame.nextTransmitted (h : s.AtIdleFrame) : s.nextTransmitted = 0#8 := by
  simp [State.nextTransmitted, h.nothingStaged]

/-- A silent frame has driven zeros when its byte is parsed. -/
theorem pushDeadline_frameExchanged (h : s.AtIdleFrame) (t : Instant) :
    pushDeadline t s.frameExchanged = s.received s.packet s.parserState 1 t := by
  rw [State.frameExchanged, State.frameDriven, h.nextTransmitted]
  rfl

/-- A silent frame whose slot writes registers of Packet and the parser state only. -/
theorem edges_frame_received (h : s.AtIdleFrame) (hps : s.parserState = ps) {k : Packet} {ps' : ParserState}
    (hslot : consume ps b t s.frameExchanged = .next ({ s.frameExchanged with packet := k, parserState := ps' }, .none)) :
    edges (frameEdges b) t s = .next (s.received k ps' 1 t) := by
  have hpush := pushDeadline_frameExchanged h t
  rw [edges_frame_slot h.toAtFrameStart hps hslot]
  exact congrArg (fun u : State => Host.Outcome.next { u with packet := k, parserState := ps' }) hpush

end Frames

section Header

variable {s : State} {t : Instant}

/-! ### The header (rule R142 to rule R145) -/

/-- The registers of Packet while the header comes in. -/
def Packet.withHeader (k : Packet) (c : Command) (compression : Byte) (length sum : Word16) : Packet :=
  { k with command := c, compressionFlag := compression, dataLength := length, checksumComputed := sum }

/-- A silent frame, and the rest of the byte sequence. -/
theorem edges_sendEdges_received {ps ps' : ParserState} {b : Byte} {bs : List Byte} {k : Packet} (h : s.AtIdleFrame)
    (hps : s.parserState = ps)
    (hslot : consume ps b t s.frameExchanged = .next ({ s.frameExchanged with packet := k, parserState := ps' }, .none)) :
    edges (sendEdges (b :: bs)) t s = edges (sendEdges bs) t (s.received k ps' 1 t) := by
  rw [edges_sendEdges_cons, edges_frame_received h hps hslot, andThen_next]

/-- The header's frames before the high length byte: the registers are filled one by one. -/
theorem edges_header_start (h : s.AtIdleFrame) (hps : s.parserState = .command) (cmd compression lo hi : Byte) :
    edges (sendEdges [cmd, compression, lo, hi]) t s =
      edges (sendEdges [hi]) t (s.received (s.packet.withHeader (decodeCommand s.params cmd) compression
        (withLowByte 0#16 lo) ([cmd, compression, lo].foldl addToChecksum 0#16)) .lengthHigh 3 t) := by
  rw [edges_sendEdges_received (k := s.packet.withHeader (decodeCommand s.params cmd) 0#8 0#16 (addToChecksum 0#16 cmd))
      h hps rfl,
    edges_sendEdges_received (k := s.packet.withHeader (decodeCommand s.params cmd) compression 0#16
      ([cmd, compression].foldl addToChecksum 0#16)) (h.received ..) rfl rfl,
    State.received_received,
    edges_sendEdges_received (k := s.packet.withHeader (decodeCommand s.params cmd) compression (withLowByte 0#16 lo)
      ([cmd, compression, lo].foldl addToChecksum 0#16)) (h.received ..) rfl rfl,
    State.received_received]

/-- The frame after silent frames drives eight more zeros. -/
theorem frameExchanged_received (k : Packet) (ps : ParserState) (n : Nat) (t : Instant) (s : State) :
    (s.received k ps n t).frameExchanged = s.received k ps (n + 1) t := by
  have hzero : (s.received k ps n t).nextTransmitted = 0#8 := rfl
  have hevents : (s.received k ps (n + 1) t).events = (s.received k ps n t).events ++ driveIdle 1 := by
    simp [State.received, driveIdle_add]
  rw [State.frameExchanged, State.frameDriven, hzero]
  exact congrArg (fun es => { s.received k ps n t with events := es }) hevents.symm

/-- The bytes before the payload (rule R86). -/
def headerBytes (cmd : Byte) (m : PacketBody) : List Byte :=
  [cmd, m.compression, lowByte (BitVec.ofNat 16 m.payload.length), highByte (BitVec.ofNat 16 m.payload.length)]

/-- What the frames of the header leave for the length-field policy (rule R145). -/
def State.headerReceived (cmd : Byte) (m : PacketBody) (t : Instant) (s : State) : State :=
  s.received (s.packet.withHeader (decodeCommand s.params cmd) m.compression (BitVec.ofNat 16 m.payload.length)
    ((headerBytes cmd m).foldl addToChecksum 0#16)) .lengthHigh 4 t

/-- The high length byte completes the length field. -/
theorem storeLengthHigh_received (k : Packet) (c : Command) (compression : Byte) (length sum : Word16) (ps : ParserState)
    (n : Nat) (t : Instant) (s : State) :
    storeLengthHigh (highByte length)
        (s.received (k.withHeader c compression (withLowByte 0#16 (lowByte length)) sum) ps n t)
      = s.received (k.withHeader c compression length (addToChecksum sum (highByte length))) ps n t :=
  congrArg (fun field => s.received (k.withHeader c compression field (addToChecksum sum (highByte length))) ps n t)
    (withHighByte_withLowByte 0#16 length)

/-- The header's frames: the registers are filled, and the length-field policy applies. -/
theorem edges_header (h : s.AtIdleFrame) (hps : s.parserState = .command) (cmd : Byte) (m : PacketBody) :
    edges (sendEdges (headerBytes cmd m)) t s
      = .next (pushDeadline t (applyLengthPolicy (s.headerReceived cmd m t))) := by
  rw [headerBytes, edges_header_start h hps, edges_sendEdges_cons,
    edges_frame_slot (h.received ..).toAtFrameStart rfl rfl, frameExchanged_received, consumeLengthHigh,
    storeLengthHigh_received]
  rfl

end Header

section Payload

variable {s : State} {t : Instant} {tag : BufferTag} {b : Byte} {bs : List Byte}

/-! ### The payload (rule R148) -/

/-- `bs` written from the offset `off` on. -/
def State.stored (tag : BufferTag) (off : Nat) (bs : List Byte) (s : State) : State :=
  match bs with
  | [] => s
  | b :: rest => (s.memWrite tag off b).stored tag (off + 1) rest

theorem State.memWrite_received (tag : BufferTag) (off : Nat) (b : Byte) (k : Packet) (ps : ParserState) (n : Nat)
    (t : Instant) (s : State) :
    (s.received k ps n t).memWrite tag off b = (s.memWrite tag off b).received k ps n t := by
  cases tag <;> rfl

theorem State.stored_received (tag : BufferTag) (off : Nat) (bs : List Byte) (k : Packet) (ps : ParserState) (n : Nat)
    (t : Instant) (s : State) :
    (s.received k ps n t).stored tag off bs = (s.stored tag off bs).received k ps n t := by
  induction bs generalizing off s with
  | nil => rfl
  | cons b rest ih => rw [State.stored, State.stored, State.memWrite_received, ih]

/-- Stored bytes change the two buffers only. -/
theorem State.stored_frame (tag : BufferTag) (off : Nat) (bs : List Byte) (s : State) :
    ∃ settings image, s.stored tag off bs = { s with settingsBuffer := settings, imageBuffer := image } := by
  induction bs generalizing off s with
  | nil => exact ⟨_, _, rfl⟩
  | cons b rest ih =>
    obtain ⟨settings, image, heq⟩ := ih (off + 1) (s.memWrite tag off b)
    refine ⟨settings, image, heq.trans ?_⟩
    cases tag <;> rfl

/-- Stored bytes leave the buffer of the other tag alone. -/
theorem State.stored_buffer_other {tag' : BufferTag} (h : tag' ≠ tag) (off : Nat) (bs : List Byte) (s : State) :
    (s.stored tag off bs).buffer tag' = s.buffer tag' := by
  induction bs generalizing off s with
  | nil => rfl
  | cons b rest ih => rw [State.stored, ih, State.memWrite_buffer, if_neg h]

/-- Stored bytes leave every offset below the first alone. -/
theorem State.memRead_stored_below {off k : Nat} (h : k < off) (bs : List Byte) (s : State) :
    (s.stored tag off bs).memRead tag k = s.memRead tag k := by
  induction bs generalizing off s with
  | nil => rfl
  | cons b rest ih =>
    have hne : ¬ (tag = tag ∧ k = off) := fun hsame => h.ne hsame.2
    rw [State.stored, ih (Nat.lt_succ_of_lt h), State.memRead_memWrite_other _ _ _ _ _ _ hne]

/-- Stored bytes are read back, and an offset after them reads as before. -/
theorem State.memRead_stored (off k : Nat) (bs : List Byte) (s : State) :
    (s.stored tag off bs).memRead tag (off + k) = (bs[k]?).getD (s.memRead tag (off + k)) := by
  induction bs generalizing off k s with
  | nil => rfl
  | cons b rest ih =>
    cases k with
    | zero =>
      change ((s.memWrite tag off b).stored tag (off + 1) rest).memRead tag off = b
      rw [State.memRead_stored_below (Nat.lt_add_one off), State.memRead_memWrite_same]
    | succ k =>
      have hne : ¬ (tag = tag ∧ off + 1 + k = off) := fun hsame => by omega
      rw [State.stored, show off + (k + 1) = off + 1 + k by omega, ih, State.memRead_memWrite_other _ _ _ _ _ _ hne,
        List.getElem?_cons_succ]

/-- The registers of Packet when the payload bytes `bs` more are in. -/
def Packet.collected (bs : List Byte) (k : Packet) : Packet :=
  { k with
    checksumComputed := bs.foldl addToChecksum k.checksumComputed
    payloadIndex := k.payloadIndex + BitVec.ofNat 17 bs.length }

theorem Packet.collected_collected (bs cs : List Byte) (k : Packet) :
    (k.collected bs).collected cs = k.collected (bs ++ cs) := by
  simp [Packet.collected, BitVec.ofNat_add, BitVec.add_assoc]

theorem pushDeadline_leavePayload (t : Instant) (s : State) :
    pushDeadline t (leavePayload s) = leavePayload (pushDeadline t s) := by
  unfold leavePayload
  rw [pushDeadline_params, pushDeadline_packet]
  split <;> rfl

theorem pushDeadline_storePayload (t : Instant) (tag : BufferTag) (b : Byte) (s : State) :
    pushDeadline t (storePayload tag b s) = storePayload tag b (pushDeadline t s) := by
  cases tag <;> rfl

theorem storePayload_received (tag : BufferTag) (b : Byte) (ps : ParserState) (n : Nat) (t : Instant) (s : State) :
    storePayload tag b (s.received s.packet ps n t)
      = (s.memWrite tag s.packet.payloadIndex.toNat b).received (s.packet.collected [b]) ps n t := by
  cases tag <;> rfl

/-- The rest of the payload is `bs`, and it fits the buffer. -/
structure State.AtPayload (tag : BufferTag) (bs : List Byte) (s : State) : Prop extends s.AtIdleFrame where
  collecting : s.parserState = .payload
  target : s.packet.payloadTarget = some tag
  fits : s.packet.payloadIndex.toNat + bs.length ≤ s.params.capacity tag
  remaining : s.packet.payloadIndex.toNat + bs.length = s.packet.dataLength.toNat + s.params.payloadExtra.val

/-- A payload byte is stored, summed and counted, in a silent frame. -/
def State.payloadReceived (tag : BufferTag) (b : Byte) (t : Instant) (s : State) : State :=
  (s.memWrite tag s.packet.payloadIndex.toNat b).received (s.packet.collected [b]) .payload 1 t

theorem State.AtIdleFrame.stored (h : s.AtIdleFrame) (tag : BufferTag) (off : Nat) (bs : List Byte) :
    (s.stored tag off bs).AtIdleFrame := by
  obtain ⟨settings, image, heq⟩ := s.stored_frame tag off bs
  rw [heq]
  exact { h with }

/-- The index counts without wrapping: a payload has at most 65536 bytes (rule R159). -/
theorem State.AtPayload.index_succ (h : s.AtPayload tag (b :: bs)) (t : Instant) :
    (s.payloadReceived tag b t).packet.payloadIndex.toNat = s.packet.payloadIndex.toNat + 1 := by
  have hremaining := h.remaining
  have hlength := s.packet.dataLength.isLt
  have hextra := s.params.payloadExtra.isLt
  rw [List.length_cons] at hremaining
  exact payloadIndex_succ (by omega)

theorem State.payloadReceived_params (tag : BufferTag) (b : Byte) (t : Instant) (s : State) :
    (s.payloadReceived tag b t).params = s.params :=
  s.memWrite_params tag _ b

theorem State.AtPayload.next (h : s.AtPayload tag (b :: bs)) (t : Instant) :
    (s.payloadReceived tag b t).AtPayload tag bs where
  toAtIdleFrame := (h.toAtIdleFrame.stored tag _ [b]).received ..
  collecting := rfl
  target := h.target
  fits := by
    rw [h.index_succ, State.payloadReceived_params, Nat.add_right_comm]
    exact h.fits
  remaining := by
    rw [h.index_succ, State.payloadReceived_params, Nat.add_right_comm]
    exact h.remaining

/-- The frame of a payload byte that fits, up to the end test. -/
theorem State.AtPayload.edges_frame (h : s.AtPayload tag (b :: bs)) (t : Instant) :
    edges (frameEdges b) t s = .next (leavePayload (s.payloadReceived tag b t)) := by
  have hcap : s.packet.payloadIndex.toNat < s.params.capacity tag := by
    have hfits := h.fits
    rw [List.length_cons] at hfits
    omega
  have hslot : consume .payload b t s.frameExchanged = .next (leavePayload (storePayload tag b s.frameExchanged), .none) :=
    consumePayload_store (s := s.frameExchanged) h.target hcap
  rw [edges_frame_slot h.toAtFrameStart h.collecting hslot, dispatchEvent, pushDeadline_leavePayload,
    pushDeadline_storePayload, pushDeadline_frameExchanged h.toAtIdleFrame, h.collecting, storePayload_received]
  rfl

/-- The frames of the rest of the payload: its bytes are stored, summed and counted, and the last one enters `CHECKSUM_LOW`. -/
theorem edges_payload (h : s.AtPayload tag bs) (hne : bs ≠ []) (t : Instant) :
    edges (sendEdges bs) t s = .next ((s.stored tag s.packet.payloadIndex.toNat bs).received
      { s.packet.collected bs with checksumReceived := 0#16 } .checksumLow bs.length t) := by
  induction bs generalizing s with
  | nil => exact absurd rfl hne
  | cons b rest ih =>
    have hnext := h.next t
    have hremaining := hnext.remaining
    rw [edges_sendEdges_cons, h.edges_frame, andThen_next]
    by_cases hlast : rest = []
    · subst hlast
      rw [leavePayload_complete hremaining.ge]
      rfl
    · have hmore := List.length_pos_iff.2 hlast
      rw [leavePayload_incomplete (by omega), ih hnext hlast, h.index_succ, State.payloadReceived, State.stored_received,
        State.received_received, Nat.add_comm 1]
      exact congrArg (fun k : Packet => Host.Outcome.next (State.received { k with checksumReceived := 0#16 } _ _ _ _))
        (s.packet.collected_collected [b] rest)

end Payload

section Body

variable {s : State} {t : Instant} {tag : BufferTag} {cmd : Byte} {m : PacketBody}

/-! ### The header and the payload together (rule R142 to rule R148) -/

/-- The bytes that the checksum covers (rule R94). -/
def summedBytes (cmd : Byte) (m : PacketBody) : List Byte :=
  headerBytes cmd m ++ m.payload

/-- The bytes after the payload (rule R86). -/
def trailerBytes (m : PacketBody) : List Byte := [lowByte m.checksum, highByte m.checksum, m.ackSlot, m.statusSlot]

theorem packetBytes_eq (cmd : Byte) (m : PacketBody) : packetBytes cmd m = summedBytes cmd m ++ trailerBytes m := by
  simp [packetBytes, summedBytes, headerBytes, trailerBytes, encodeWord16]

theorem foldl_addToChecksum_eq_ofNat (bs : List Byte) (sum : Word16) :
    bs.foldl addToChecksum sum = BitVec.ofNat 16 (sum.toNat + (bs.map BitVec.toNat).sum) := by
  induction bs generalizing sum with
  | nil => simp
  | cons b rest ih =>
    rw [List.foldl_cons, ih, addToChecksum_eq_ofNat]
    apply BitVec.eq_of_toNat_eq
    simp [Nat.add_assoc]

/-- The sum that the parser keeps is the checksum of the packet (rule R94, rule R158). -/
theorem foldl_addToChecksum_summedBytes (h : m.payload.length ≤ 65535) (cmd : Byte) :
    (summedBytes cmd m).foldl addToChecksum 0#16 = packetSum cmd m := by
  have hlength : (BitVec.ofNat 16 m.payload.length).toNat = m.payload.length := Nat.mod_eq_of_lt (by omega)
  rw [foldl_addToChecksum_eq_ofNat, packetSum]
  simp [summedBytes, headerBytes, lowByte_toNat, highByte_toNat, hlength, Nat.add_assoc]

/-- The registers of Packet at the entry of `CHECKSUM_LOW`; without a payload the target and the index keep their values. -/
def bodyPacket (tag : BufferTag) (p : Params) (cmd : Byte) (m : PacketBody) (k : Packet) : Packet :=
  { k with
    command := decodeCommand p cmd
    compressionFlag := m.compression
    dataLength := BitVec.ofNat 16 m.payload.length
    payloadTarget := if m.payload = [] then k.payloadTarget else some tag
    payloadIndex := if m.payload = [] then k.payloadIndex else BitVec.ofNat 17 m.payload.length
    checksumReceived := 0#16
    checksumComputed := packetSum cmd m }

/-- A payload, if there is one, has a target whose buffer holds it, and `PAYLOAD_EXTRA` is 0. -/
structure PayloadFits (p : Params) (cmd : Byte) (m : PacketBody) (tag : BufferTag) : Prop where
  length : m.payload.length ≤ 65535
  target : m.payload ≠ [] → targetOf (decodeCommand p cmd) = some tag
  fits : m.payload ≠ [] → m.payload.length ≤ p.capacity tag
  noExtra : m.payload ≠ [] → p.payloadExtra = 0

theorem PayloadFits.length_toNat {p : Params} (h : PayloadFits p cmd m tag) :
    (BitVec.ofNat 16 m.payload.length).toNat = m.payload.length := by
  have hlength := h.length
  exact Nat.mod_eq_of_lt (by omega)

/-- What the frames of the header and the payload leave. -/
def State.bodyReceived (tag : BufferTag) (cmd : Byte) (m : PacketBody) (t : Instant) (s : State) : State :=
  (s.stored tag 0 m.payload).received (bodyPacket tag s.params cmd m s.packet) .checksumLow (4 + m.payload.length) t

/-- A length field that is not 0 enters `PAYLOAD` with the whole payload to come (rule R146). -/
theorem enterPayload_atPayload (h : s.AtIdleFrame) (hfits : PayloadFits s.params cmd m tag) (hne : m.payload ≠ [])
    (t : Instant) : (enterPayload (s.headerReceived cmd m t)).AtPayload tag m.payload where
  toAtIdleFrame := { h with nothingStaged := rfl }
  collecting := rfl
  target := hfits.target hne
  fits := (Nat.zero_add _).trans_le (hfits.fits hne)
  remaining := by
    change 0 + m.payload.length = (BitVec.ofNat 16 m.payload.length).toNat + s.params.payloadExtra.val
    rw [hfits.length_toNat, hfits.noExtra hne, Nat.zero_add]
    rfl

/-- The frames of the header and the payload. -/
theorem edges_body (h : s.AtIdleFrame) (hps : s.parserState = .command) (hfits : PayloadFits s.params cmd m tag)
    (t : Instant) :
    edges (sendEdges (summedBytes cmd m)) t s = .next (s.bodyReceived tag cmd m t) := by
  have hsum := foldl_addToChecksum_summedBytes hfits.length cmd
  have hlength := hfits.length_toNat
  rw [summedBytes, List.foldl_append] at hsum
  rw [summedBytes, edges_sendEdges_append, edges_header h hps, andThen_next]
  by_cases hempty : m.payload = []
  · have hzero : (s.headerReceived cmd m t).packet.dataLength = 0#16 := by
      change BitVec.ofNat 16 m.payload.length = 0#16
      rw [hempty]
      rfl
    rw [applyLengthPolicy_of_zero hzero, State.bodyReceived, bodyPacket, if_pos hempty, if_pos hempty, ← hsum,
      State.headerReceived, hempty]
    rfl
  · have hnonzero : (s.headerReceived cmd m t).packet.dataLength ≠ 0#16 := fun hzero =>
      hempty (List.length_eq_zero_iff.1 (hlength.symm.trans (congrArg BitVec.toNat hzero)))
    rw [applyLengthPolicy_of_target hnonzero (hfits.target hempty)]
    refine (edges_payload (enterPayload_atPayload h hfits hempty t) hempty t).trans ?_
    have hentered : enterPayload (s.headerReceived cmd m t)
        = s.received (enterPayload (s.headerReceived cmd m t)).packet .payload 4 t := rfl
    rw [hentered, State.stored_received, State.received_received, State.bodyReceived, bodyPacket, if_neg hempty,
      if_neg hempty, ← hsum, ← hfits.target hempty, ← BitVec.zero_add (BitVec.ofNat 17 m.payload.length)]
    rfl

end Body

section Trailer

variable {s : State} {t : Instant}

/-! ### The checksum field, the acknowledgement and the status byte (rule R150 to rule R157) -/

/-- PrinterStatus at the end of a packet whose checksum field is `checksum` (rule R154). -/
def State.finalFlags (checksum : Word16) (s : State) : PrinterStatus :=
  statusEntryFlags { s.packet with checksumReceived := checksum } s.printer

/-- What the frames after the payload leave (rule R163). -/
def State.packetEnded (checksum : Word16) (t : Instant) (s : State) : State :=
  { s with
    sync := syncAfterPacket s.params (statusOf s.params (s.finalFlags checksum)) s.sync
    parserState := .command
    packet := { s.packet with
      checksumReceived := checksum, deviceAckByte := s.params.deviceId
      statusByte := statusOf s.params (s.finalFlags checksum) }
    printer := s.finalFlags checksum
    pretendPrintDeadline := statusEntryDeadline s.params s.packet.command t s.pretendPrintDeadline
    readyFlag := true
    timeoutDeadline := t + s.params.timeoutWindow
    events := s.events ++ driveIdle 2 ++ driveFrame s.params.deviceId
      ++ driveFrame (statusOf s.params (s.finalFlags checksum)) ++ [.packetReady] }

/-- The checksum field is in, and the acknowledgement is staged (rule R152). -/
def State.ackStaged (checksum : Word16) (t : Instant) (s : State) : State :=
  (s.received { s.packet with checksumReceived := checksum, deviceAckByte := s.params.deviceId } .deviceId 2 t).stageByte
    s.params.deviceId

/-- The acknowledgement is transmitted, and the status byte is staged (rule R154). -/
def State.statusStaged (checksum : Word16) (t : Instant) (s : State) : State :=
  { s.packetEnded checksum t with
    sync := { s.sync with
      txStaged := statusOf s.params (s.finalFlags checksum), txStagedValid := true
      txActive := s.params.deviceId, dataOut := .level (s.params.deviceId.getLsbD 0) }
    parserState := .status
    readyFlag := s.readyFlag
    events := s.events ++ driveIdle 2 ++ driveFrame s.params.deviceId }

/-- The status byte is transmitted, and the parser is back in `COMMAND` (rule R157). -/
def State.statusSent (checksum : Word16) (t : Instant) (s : State) : State :=
  { s.statusStaged checksum t with
    sync := { s.sync with
      txStaged := statusOf s.params (s.finalFlags checksum), txStagedValid := false
      txActive := statusOf s.params (s.finalFlags checksum)
      dataOut := .level ((statusOf s.params (s.finalFlags checksum)).getLsbD 0) }
    parserState := .command
    events := s.events ++ driveIdle 2 ++ driveFrame s.params.deviceId
      ++ driveFrame (statusOf s.params (s.finalFlags checksum)) }

/-- `PacketReady` ends the packet, with or without the loss of synchronisation (rule R182, rule R183). -/
theorem packetReady_statusSent (h : s.AtIdleFrame) (c : Word16) (t : Instant) :
    packetReady (s.statusSent c t) = s.packetEnded c t := by
  have hstaged := h.nothingStaged
  obtain ⟨hresync, heq⟩ | ⟨hresync, heq⟩ := packetReady_cases (s.statusSent c t)
  · have hparams : s.params.resyncAfterPacket = true := hresync
    rw [heq, State.packetEnded, syncAfterPacket, if_pos hparams]
    rfl
  · have hparams : ¬ s.params.resyncAfterPacket = true := Bool.eq_false_iff.1 hresync
    rw [heq, State.packetEnded, syncAfterPacket, if_neg hparams, hstaged]
    rfl

theorem edges_checksum (h : s.AtIdleFrame) (hps : s.parserState = .checksumLow) (c : Word16) :
    edges (sendEdges [lowByte c, highByte c]) t s = .next (s.ackStaged c t) := by
  rw [edges_sendEdges_received (k := { s.packet with checksumReceived := withLowByte s.packet.checksumReceived (lowByte c) })
      h hps rfl,
    edges_sendEdges_cons, edges_frame_slot (h.received ..).toAtFrameStart rfl rfl, andThen_next, frameExchanged_received]
  conv_rhs => rw [← withHighByte_withLowByte s.packet.checksumReceived c]
  rfl

theorem edges_acknowledgement (h : s.AtIdleFrame) (c : Word16) (b : Byte) :
    edges (frameEdges b) t (s.ackStaged c t) = .next (s.statusStaged c t) :=
  edges_frame_slot (s := s.ackStaged c t) { h with } rfl rfl

theorem edges_status (h : s.AtIdleFrame) (c : Word16) (b : Byte) :
    edges (frameEdges b) t (s.statusStaged c t) = .next (s.packetEnded c t) := by
  rw [edges_frame_slot (s := s.statusStaged c t) { h with } rfl rfl]
  exact congrArg (fun u => Host.Outcome.next (pushDeadline t u)) (packetReady_statusSent h c t)

/-- The frames after the payload: the checksum field, the acknowledgement, the status byte. -/
theorem edges_trailer (h : s.AtIdleFrame) (hps : s.parserState = .checksumLow) (m : PacketBody) :
    edges (sendEdges (trailerBytes m)) t s = .next (s.packetEnded m.checksum t) := by
  have hsplit : trailerBytes m = [lowByte m.checksum, highByte m.checksum] ++ [m.ackSlot, m.statusSlot] := rfl
  rw [hsplit, edges_sendEdges_append, edges_checksum h hps, andThen_next, edges_sendEdges_cons, edges_acknowledgement h,
    andThen_next, edges_sendEdges_cons, edges_status h, andThen_next]
  rfl

end Trailer

section Packets

variable {s : State} {tag : BufferTag} {cmd : Byte} {m : PacketBody}

/-! ### A whole packet (rule R163) -/

/-- What a packet from the start of a packet leaves, where its payload fits. -/
def State.packetSent (tag : BufferTag) (cmd : Byte) (m : PacketBody) (s : State) : State :=
  (s.start.bodyReceived tag cmd m m.instant).packetEnded m.checksum m.instant

/-- The frames of a whole packet: the header and the payload, then the frames after them. -/
theorem sendPacket_next (h : s.AtPacketStart) (hfits : PayloadFits s.params cmd m tag) :
    sendPacket cmd m s = .next (s.packetSent tag cmd m) := by
  have hidle : s.start.AtIdleFrame := { h with }
  have hbody : (s.start.bodyReceived tag cmd m m.instant).AtIdleFrame := (hidle.stored ..).received ..
  rw [sendPacket, packetBytes_eq, edges_sendEdges_append, edges_body (s := s.start) hidle h.idle hfits, andThen_next,
    edges_trailer hbody rfl, State.packetSent]

/-- PrinterStatus after a packet of the command `c` (rule R154). -/
def State.packetFlags (c : Command) (cmd : Byte) (m : PacketBody) (s : State) : PrinterStatus :=
  statusEntryFlags { s.packet with command := c, checksumComputed := packetSum cmd m, checksumReceived := m.checksum }
    s.printer

/-- The silent frames of a packet leave no trace in what it leaves of SyncState. -/
theorem syncAfterPacket_silent {y : SyncState} (h : y.txStagedValid = false) (p : Params) (status : Byte) :
    syncAfterPacket p status { y with txActive := 0#8, txStagedValid := false, dataOut := .level false }
      = syncAfterPacket p status y := by
  unfold syncAfterPacket
  rw [← h]
  split <;> rfl

/-- A packet that parses to its end leaves what rule R163 says of every row. -/
theorem packetSent_ends {c : Command} (h : s.AtPacketStart) (hcommand : decodeCommand s.params cmd = c)
    (hlength : m.payload.length ≤ 65535) (tag : BufferTag) :
    PacketEnds cmd c m (s.packetFlags c cmd m) s (s.packetSent tag cmd m) := by
  subst hcommand
  obtain ⟨settings, image, hstored⟩ := s.start.stored_frame tag 0 m.payload
  have hevents : driveIdle (6 + m.payload.length) = driveIdle (4 + m.payload.length) ++ driveIdle 2 := by
    rw [← driveIdle_add]
    congr 1
    omega
  rw [State.packetSent, State.bodyReceived, hstored]
  exact
    { streamer := syncAfterPacket_silent h.nothingStaged _ _
      idle := rfl
      command := rfl
      compression := rfl
      length := Nat.mod_eq_of_lt (by omega)
      computed := rfl
      received := rfl
      acknowledged := rfl
      status := rfl
      printer := rfl
      ready := rfl
      pushed := rfl
      noViolation := ⟨rfl, rfl, rfl⟩
      events := by rw [hevents]; rfl
      modelFields := ⟨rfl, rfl, rfl, rfl⟩ }

theorem packetSent_pretendPrintDeadline {c : Command} (hcommand : decodeCommand s.params cmd = c) (tag : BufferTag)
    (m : PacketBody) :
    (s.packetSent tag cmd m).pretendPrintDeadline
      = statusEntryDeadline s.params c m.instant s.pretendPrintDeadline := by
  subst hcommand
  obtain ⟨settings, image, hstored⟩ := s.start.stored_frame tag 0 m.payload
  rw [State.packetSent, State.bodyReceived, hstored]
  rfl

/-- Without a payload no buffer byte is written, and `PAYLOAD` is never entered. -/
theorem packetSent_of_empty (hempty : m.payload = []) (tag : BufferTag) (cmd : Byte) (s : State) :
    (s.packetSent tag cmd m).settingsBuffer = s.settingsBuffer ∧ (s.packetSent tag cmd m).imageBuffer = s.imageBuffer
    ∧ (s.packetSent tag cmd m).packet.payloadTarget = s.packet.payloadTarget
    ∧ (s.packetSent tag cmd m).packet.payloadIndex = s.packet.payloadIndex := by
  rw [State.packetSent, State.bodyReceived, hempty]
  exact ⟨rfl, rfl, if_pos hempty, if_pos hempty⟩

theorem packetSent_of_payload (hne : m.payload ≠ []) (tag : BufferTag) (cmd : Byte) (s : State) :
    (s.packetSent tag cmd m).packet.payloadTarget = some tag
    ∧ (s.packetSent tag cmd m).packet.payloadIndex = BitVec.ofNat 17 m.payload.length :=
  ⟨if_neg hne, if_neg hne⟩

/-- The payload stands in its buffer from offset 0 on, and the rest of the buffer keeps its bytes. -/
theorem packetSent_memRead (tag : BufferTag) (cmd : Byte) (m : PacketBody) (s : State) (off : Nat) :
    (s.packetSent tag cmd m).memRead tag off = (m.payload[off]?).getD (s.memRead tag off) := by
  have hread := s.start.memRead_stored (tag := tag) 0 off m.payload
  rw [Nat.zero_add] at hread
  exact hread

theorem packetSent_buffer_other {tag tag' : BufferTag} (h : tag' ≠ tag) (cmd : Byte) (m : PacketBody) (s : State) :
    (s.packetSent tag cmd m).buffer tag' = s.buffer tag' :=
  s.start.stored_buffer_other h 0 m.payload

/-- A packet of length 0 of a command without a target. -/
theorem sendPacket_targetless {c : Command} (h : s.AtPacketStart) (hempty : m.payload = [])
    (hcommand : decodeCommand s.params cmd = c) (hnone : targetOf c = none) :
    ∃ u, sendPacket cmd m s = .next u
      ∧ PacketEnds cmd c m { s.printer with checksumError := packetSum cmd m != m.checksum } s u
      ∧ u.settingsBuffer = s.settingsBuffer ∧ u.imageBuffer = s.imageBuffer
      ∧ u.pretendPrintDeadline = s.pretendPrintDeadline ∧ u.packet.payloadTarget = s.packet.payloadTarget
      ∧ u.packet.payloadIndex = s.packet.payloadIndex := by
  have hlength : m.payload.length ≤ 65535 := by simp [hempty]
  have hfits : PayloadFits s.params cmd m .image := ⟨hlength, absurd hempty, absurd hempty, absurd hempty⟩
  obtain ⟨hsettings, himage, htarget, hindex⟩ := packetSent_of_empty hempty .image cmd s
  have hends := packetSent_ends h hcommand hlength .image
  have hdeadline := packetSent_pretendPrintDeadline hcommand .image m
  refine ⟨_, sendPacket_next h hfits, ?_, hsettings, himage, ?_, htarget, hindex⟩
  all_goals cases c with
  | init | inquiry | unknown => assumption
  | data | print => cases hnone

/-- A packet of a command with a target, whose payload fits, with `PAYLOAD_EXTRA` = 0. -/
theorem sendPacket_payload {c : Command} (h : s.AtPacketStart) (hcommand : decodeCommand s.params cmd = c)
    (htag : targetOf c = some tag) (hwf : m.wf = true) (hfits : m.payload.length ≤ s.params.capacity tag)
    (hextra : s.params.payloadExtra = 0) :
    sendPacket cmd m s = .next (s.packetSent tag cmd m)
      ∧ PacketEnds cmd c m (s.packetFlags c cmd m) s (s.packetSent tag cmd m)
      ∧ (m.payload ≠ [] → (s.packetSent tag cmd m).packet.payloadTarget = some tag
          ∧ (s.packetSent tag cmd m).packet.payloadIndex.toNat = m.payload.length)
      ∧ (m.payload = [] → (s.packetSent tag cmd m).packet.payloadTarget = s.packet.payloadTarget
          ∧ (s.packetSent tag cmd m).packet.payloadIndex = s.packet.payloadIndex) := by
  have hlength : m.payload.length ≤ 65535 := of_decide_eq_true hwf
  refine ⟨sendPacket_next h ⟨hlength, fun _ => hcommand ▸ htag, fun _ => hfits, fun _ => hextra⟩,
    packetSent_ends h hcommand hlength tag, fun hne => ?_, fun hempty => ?_⟩
  · obtain ⟨htarget, hindex⟩ := packetSent_of_payload hne tag cmd s
    refine ⟨htarget, ?_⟩
    rw [hindex]
    exact Nat.mod_eq_of_lt (by omega)
  · obtain ⟨-, -, htarget, hindex⟩ := packetSent_of_empty hempty tag cmd s
    exact ⟨htarget, hindex⟩

end Packets

/-- Settles O47: the three commands by the law of a packet without payload. -/
theorem targetlessPacketsEndToEnd : Obligations.TargetlessPacketsEndToEnd := by
  intro s m b h hconsistent hwf hempty hcode flags frame
  obtain ⟨hinit, -, -, hinquiry, hunknown, -⟩ := commandDecodeByEquality s.params hwf
  have hb : decodeCommand s.params b = .unknown := by
    simp only [Params.isCommandCode, decide_eq_false_iff_not, List.mem_cons, List.not_mem_nil, or_false, not_or] at hcode
    obtain ⟨hbInit, hbPrint, hbData, hbInquiry⟩ := hcode
    exact (hunknown b).2 ⟨hbInit, hbData, hbPrint, hbInquiry⟩
  exact ⟨sendPacket_targetless h hempty hinit rfl, sendPacket_targetless h hempty hinquiry rfl,
    sendPacket_targetless h hempty hb rfl⟩

/-- Settles O48: the payload goes to the image buffer. -/
theorem dataPacketEndToEnd : Obligations.DataPacketEndToEnd := by
  intro s m h _ hwf hm hfits hextra
  obtain ⟨-, hdata, -⟩ := commandDecodeByEquality s.params hwf
  obtain ⟨hsent, hends, hpayload, hempty⟩ := sendPacket_payload (tag := .image) h hdata rfl hm hfits hextra
  exact ⟨_, hsent, hends, packetSent_memRead .image _ m s,
    packetSent_buffer_other (tag := .image) (tag' := .settings) nofun _ m s,
    packetSent_pretendPrintDeadline hdata .image m, hpayload, hempty⟩

/-- Settles O49: the payload goes to the settings buffer, and the pretend print is armed. -/
theorem printPacketEndToEnd : Obligations.PrintPacketEndToEnd := by
  intro s m h _ hwf hm hfits hextra
  obtain ⟨-, -, hprint, -⟩ := commandDecodeByEquality s.params hwf
  obtain ⟨hsent, hends, hpayload, hempty⟩ := sendPacket_payload (tag := .settings) h hprint rfl hm hfits hextra
  exact ⟨_, hsent, hends, packetSent_memRead .settings _ m s,
    packetSent_buffer_other (tag := .settings) (tag' := .image) nofun _ m s,
    packetSent_pretendPrintDeadline hprint .settings m, hpayload, hempty⟩

end Sys2Proof.Machine

/-!
PROOFS. The statements on the session controller and the host-side operations (42_session.md): `BYTE` (rule R180 to rule R183),
`POLL` (rule R184 to rule R187), and the operations of the host (rule R188 to rule R191).

`BYTE` rests on one law, `exec_byte_of_parse`, that reads it off the `PARSE` of the same byte; `POLL` on one law for each side of
each of its two checks.
-/
namespace Sys2Proof.Machine

section Bytes

variable {s u : State} {b : Byte} {t : Instant} {ps : ParserState}

/-! ### A byte, by what its `PARSE` returns (rule R180) -/

/-- `BYTE` goes on from where `PARSE` ends, and returns no value itself: it dispatches the event, then pushes the deadline. -/
theorem exec_byte_of_parse {ev : ParserEvent} (h : exec (.parse b t) s = .next u)
    (hev : u.result = some (.parserEvent ev)) :
    exec (.byte b t) s = .next (pushDeadline t (dispatchEvent ({ u with result := none }, ev))) := by
  obtain ⟨⟨v, ev'⟩, hparse, hanswer⟩ := andThen_eq_next h
  cases hanswer
  obtain rfl : ev' = ev := by simpa [answerEvent] using hev
  have hresult : v.result = none := consume_result ((parse_eq_consume b t s.start).symm.trans hparse)
  have hunanswered : { answerEvent (v, ev') with result := none } = v := by rw [← hresult]; rfl
  change completeByte b t s.start = _
  rw [completeByte, hparse, andThen_next, hunanswered]

/-- Without an event only the deadline is pushed. -/
theorem exec_byte_of_parse_none (h : exec (.parse b t) s = .next u) (hev : u.result = some (.parserEvent .none)) :
    exec (.byte b t) s = .next { u with result := none, timeoutDeadline := t + s.params.timeoutWindow } := by
  rw [exec_byte_of_parse h hev, ← (exec_sameInstance h).params]
  rfl

/-- The byte that `PARSE` returns for transmission is staged. -/
theorem exec_byte_of_parse_transmit {x : Byte} (h : exec (.parse b t) s = .next u)
    (hev : u.result = some (.parserEvent (.transmitByte x))) :
    exec (.byte b t) s = .next { u with
      result := none, timeoutDeadline := t + s.params.timeoutWindow,
      sync := { u.sync with txStaged := x, txStagedValid := true } } := by
  rw [exec_byte_of_parse h hev, ← (exec_sameInstance h).params]
  rfl

/-- A `PARSE` that returns a byte for transmission raised no violation, and so wrote nothing of the streamer. -/
theorem exec_parse_sync_of_transmit {x : Byte} (h : exec (.parse b t) s = .next u)
    (hev : u.result = some (.parserEvent (.transmitByte x))) : u.sync = s.sync := by
  obtain ⟨⟨v, ev'⟩, hparse, hanswer⟩ := andThen_eq_next h
  cases hanswer
  obtain hsame | ⟨hnone, -, -⟩ := consume_sync ((parse_eq_consume b t s.start).symm.trans hparse)
  · exact hsame
  · simp [answerEvent, show ev' = .none from hnone] at hev

/-- `PARSE` at the end of the checksum field or in the device-ID slot returns a byte for transmission (rule R152, rule R154). -/
theorem exec_parse_transmits (hps : s.parserState = .checksumHigh ∨ s.parserState = .deviceId) (b : Byte) (t : Instant) :
    ∃ (u : State) (x : Byte), exec (.parse b t) s = .next u ∧ u.result = some (.parserEvent (.transmitByte x))
      ∧ x = if s.parserState = .checksumHigh then s.params.deviceId else u.packet.statusByte := by
  obtain hps | hps := hps <;> rw [hps]
  · exact ⟨_, s.params.deviceId, exec_parse_of_state hps b t, rfl, rfl⟩
  · exact ⟨_, _, exec_parse_of_state hps b t, rfl, rfl⟩

/-- In these four states `PARSE` returns no event, for every byte (rule R142 to rule R144, rule R150). -/
theorem exec_parse_silent
    (hps : s.parserState = .command ∨ s.parserState = .compression ∨ s.parserState = .lengthLow
      ∨ s.parserState = .checksumLow) (b : Byte) (t : Instant) :
    ∃ u, exec (.parse b t) s = .next u ∧ u.result = some (.parserEvent .none) := by
  obtain hps | hps | hps | hps := hps <;> exact ⟨_, exec_parse_of_state hps b t, rfl⟩

/-- `BYTE` pushes the deadline last, in whatever state the rest of it ends (rule R181). -/
theorem completeByte_timeoutDeadline (h : completeByte b t s = .next u) :
    u.timeoutDeadline = t + s.params.timeoutWindow := by
  rw [← (completeByte_sameInstance h).params]
  obtain ⟨r, -, rfl⟩ := completeByte_cases h
  rfl

end Bytes

/-- Settles O33, by the law of `BYTE`'s deadline. -/
theorem everyBytePushesDeadline : Obligations.EveryBytePushesDeadline :=
  fun s _ _ _ h => completeByte_timeoutDeadline (s := s.start) h

/-- Settles O32: the first part is the law of a `PARSE` without event; the four states have such a `PARSE`. -/
theorem byteWithoutEventPushesDeadline : Obligations.ByteWithoutEventPushesDeadline := by
  refine fun s b t => ⟨fun u => exec_byte_of_parse_none, fun hps => ?_⟩
  obtain ⟨u, hparse, hnone⟩ := exec_parse_silent hps b t
  exact ⟨u, hparse, hnone, exec_byte_of_parse_none hparse hnone⟩

/-- Settles O34: both states return a byte for transmission, and `BYTE` stages it. -/
theorem byteStagesResponse : Obligations.ByteStagesResponse := by
  intro s b t hps
  obtain ⟨u, x, hparse, hevent, hx⟩ := exec_parse_transmits hps b t
  refine ⟨u, x, hparse, hevent, hx, ?_⟩
  rw [exec_byte_of_parse_transmit hparse hevent, exec_parse_sync_of_transmit hparse hevent]

/-- Settles O35: `PARSE` is the status slot, which restarts the parser and returns `PacketReady`; its dispatch resynchronises as
the parameter says. -/
theorem lastByteReportsPacket : Obligations.LastByteReportsPacket := by
  intro s b t hps
  have hparse : exec (.parse b t) s = exec (.slotStatus b) s := exec_parse_of_state hps b t
  rw [statusSlotRestartsParser s b] at hparse
  rw [exec_byte_of_parse hparse rfl, dispatchEvent]
  obtain ⟨hresync, heq⟩ | ⟨hkeep, heq⟩ := packetReady_cases
      { s with events := [], result := none, parserState := .command }
  · rw [heq, if_pos hresync]
    rfl
  · rw [heq, if_neg (by simpa using hkeep)]
    rfl

section Poll

variable {s : State} {t : Instant}

/-! ### The two checks of `POLL` (rule R185, rule R187) -/

/-- The pretend print has elapsed at `t` (rule R185). -/
def State.PrintElapsed (t : Instant) (s : State) : Prop :=
  ∃ limit, s.pretendPrintDeadline = some limit ∧ limit.toNat ≤ t.toNat

/-- A packet is in progress, and its deadline has passed at `t` (rule R187). -/
def State.Stalled (t : Instant) (s : State) : Prop :=
  s.parserState ≠ .command ∧ s.timeoutDeadline.toNat < t.toNat

theorem checkPrint_of_elapsed (h : s.PrintElapsed t) :
    checkPrint t s = { s with
      printer := { s.printer with printerBusy := false, printBufferFull := false }
      pretendPrintDeadline := none }.emit .printFinished :=
  if_pos ((printElapsed_iff _ t).2 h)

theorem checkPrint_of_not_elapsed (h : ¬ s.PrintElapsed t) : checkPrint t s = s :=
  if_neg fun helapsed => h ((printElapsed_iff _ t).1 helapsed)

theorem checkTimeout_of_stalled (h : s.Stalled t) : checkTimeout t s = s.resync.emit .timeoutFired :=
  if_pos ((timeoutElapsed_iff _ _ t).2 h)

theorem checkTimeout_of_not_stalled (h : ¬ s.Stalled t) : checkTimeout t s = s :=
  if_neg fun helapsed => h ((timeoutElapsed_iff _ _ t).1 helapsed)

/-- A running core makes the two checks, in this order (rule R184). -/
theorem exec_poll_of_running (h : s.halted = false) (t : Instant) :
    exec (.poll t) s = .next (checkTimeout t (checkPrint t s.start)) :=
  if_neg (by simp [h])

/-- The print check writes nothing that the inactivity check reads. -/
theorem stalled_checkPrint (t : Instant) (s : State) : (checkPrint t s).Stalled t ↔ s.Stalled t := by
  obtain ⟨-, heq⟩ | ⟨-, heq⟩ := checkPrint_cases t s
  · rw [heq]; rfl
  · rw [heq]

end Poll

/-- Settles O36: by whether the pretend print has elapsed and whether the packet has stalled, both before the operation. -/
theorem pollChecksBothDeadlines : Obligations.PollChecksBothDeadlines := by
  intro s t hrunning printed stalled
  refine ⟨_, exec_poll_of_running hrunning t, ?_⟩
  have hstalled_iff : (checkPrint t s.start).Stalled t ↔ stalled := stalled_checkPrint t s.start
  by_cases hprinted : printed
  · rw [checkPrint_of_elapsed (s := s.start) hprinted] at hstalled_iff ⊢
    by_cases hstalled : stalled
    · rw [checkTimeout_of_stalled (hstalled_iff.2 hstalled)]
      simp [hprinted, hstalled, State.resync, State.emit, State.start, SyncState.preSync]
    · rw [checkTimeout_of_not_stalled (mt hstalled_iff.1 hstalled)]
      simp [hprinted, hstalled, State.emit, State.start]
  · rw [checkPrint_of_not_elapsed (s := s.start) hprinted] at hstalled_iff ⊢
    by_cases hstalled : stalled
    · rw [checkTimeout_of_stalled (hstalled_iff.2 hstalled)]
      simp [hprinted, hstalled, State.resync, State.emit, State.start, SyncState.preSync]
    · rw [checkTimeout_of_not_stalled (mt hstalled_iff.1 hstalled)]
      simp [hprinted, hstalled, State.start]

/-- Settles O37: the operation is the shared resynchronisation, from the start of an operation. -/
theorem resyncWritesPreSyncOnly : Obligations.ResyncWritesPreSyncOnly := fun _ => rfl

section HostSide

variable {s : State}

/-! ### The operations of the host (rule R188, rule R190) -/

/-- `CLEAR_READY` writes the flag of a running core only (rule R188, rule R216). -/
theorem exec_clearReady (s : State) :
    exec .clearReady s = .next { s with
      events := [], result := none, readyFlag := if s.halted then s.readyFlag else false } := by
  change execClearReady s = _
  unfold execClearReady
  split <;> rfl

/-- A byte written is what the buffer reads (rule R62). -/
theorem State.memRead_of_written {tag : BufferTag} {off : Nat} {v : Byte} (h : Buffer.read (s.buffer tag) off = some v) :
    s.memRead tag off = v := by
  simp only [State.memRead, h]

theorem State.imageBytes_length (s : State) : s.imageBytes.length = s.params.imageCapacity := by
  simp [State.imageBytes]

/-- The image is listed from offset 0 on (rule R190). -/
theorem State.imageBytes_getElem? {off : Nat} (h : off < s.params.imageCapacity) :
    s.imageBytes[off]? = some (s.memRead .image off) := by
  simp [State.imageBytes, h]

end HostSide

/-- Settles O38: a second clearing finds the flag as the first has left it. -/
theorem clearReadyClearsFlag : Obligations.ClearReadyClearsFlag := by
  refine fun s => ⟨exec_clearReady s, ?_⟩
  simp only [runAll, exec_clearReady, andThen_next]
  cases s.halted <;> rfl

/-- Settles O39: each query answers from the start of an operation, with no test of `halted`. -/
theorem queriesAnswerAndChangeNothing : Obligations.QueriesAnswerAndChangeNothing := fun _ => ⟨rfl, rfl⟩

/-- Settles O40: the list answered is `imageBytes`, and a byte written is read back at its offset. -/
theorem imageQueryReturnsBuffer : Obligations.ImageQueryReturnsBuffer := fun s =>
  ⟨s.imageBytes, rfl, s.imageBytes_length, fun _ _ hoff hwritten =>
    (State.imageBytes_getElem? hoff).trans (congrArg some (State.memRead_of_written hwritten))⟩

end Sys2Proof.Machine

/-!
PROOFS. The statements on the exceptions (60_exceptions.md): the two violations under either policy (rule R211, R212, R214), the
halted core (rule R216), an `EDGE` and a `POLL` due together (rule R218), and that every operation returns normally (rule R220)
and the core then waits for the next one (rule R224).

A violation rests on one law for each cause, `exec_byte_noTarget` and `exec_byte_overrun`, that leaves the policy open; the policy
is then a law of `State.raiseViolation`.
-/
namespace Sys2Proof.Machine

section Violations

variable {s : State} {b : Byte} {t : Instant} {ps : ParserState} {r : State × ParserEvent}

/-! ### The byte that raises a violation (rule R180, R211, R212) -/

/-- `BYTE` runs the slot of the parser state, then the dispatch of its event and the deadline. -/
theorem exec_byte_of_consume (hps : s.parserState = ps) (h : consume ps b t s.start = .next r) :
    exec (.byte b t) s = .next (pushDeadline t (dispatchEvent r)) := by
  have hparse : parse b t s.start = .next r := (parse_eq_consume b t s.start).trans (hps ▸ h)
  change completeByte b t s.start = _
  rw [completeByte, hparse, andThen_next]

/-- A non-zero length without a target is a violation. -/
theorem applyLengthPolicy_of_noTarget (h : s.packet.dataLength ≠ 0#16) (hnone : targetOf s.packet.command = none) :
    applyLengthPolicy s = s.raiseViolation .noPayloadTarget :=
  (if_neg h).trans (if_pos hnone)

/-- The length field after its high byte, by its number (rule R145). -/
theorem withHighByte_eq_of_toNat {field length : Word16} (h : length.toNat = b.toNat * 256 + field.toNat % 256) :
    withHighByte field b = length :=
  BitVec.eq_of_toNat_eq ((withHighByte_toNat _ _).trans h.symm)

/-- The high length byte stored and summed, with the length and the sum as numbers. -/
theorem storeLengthHigh_eq {length : Word16} (h : length.toNat = b.toNat * 256 + s.packet.dataLength.toNat % 256) :
    storeLengthHigh b s = { s with
      packet := { s.packet with
        dataLength := length, checksumComputed := BitVec.ofNat 16 (s.packet.checksumComputed.toNat + b.toNat) } } := by
  rw [storeLengthHigh, withHighByte_eq_of_toNat h, addToChecksum_eq_ofNat]

/-- The byte that completes a non-zero length without a target: stored and summed, then the violation, then the deadline. -/
theorem exec_byte_noTarget {length : Word16} (h : length.toNat = b.toNat * 256 + s.packet.dataLength.toNat % 256)
    (hps : s.parserState = .lengthHigh) (hne : length ≠ 0#16) (hnone : targetOf s.packet.command = none) (t : Instant) :
    exec (.byte b t) s = .next (pushDeadline t ((storeLengthHigh b s.start).raiseViolation .noPayloadTarget)) := by
  have hstored : (storeLengthHigh b s.start).packet.dataLength ≠ 0#16 := (withHighByte_eq_of_toNat h).trans_ne hne
  have hviolates : consumeLengthHigh b s.start = ((storeLengthHigh b s.start).raiseViolation .noPayloadTarget, .none) :=
    congrArg (·, ParserEvent.none) (applyLengthPolicy_of_noTarget hstored hnone)
  exact exec_byte_of_consume hps (congrArg Host.Outcome.next hviolates)

/-- The payload byte that does not fit: the violation, then the deadline. -/
theorem exec_byte_overrun {tag : BufferTag} (hps : s.parserState = .payload) (htag : s.packet.payloadTarget = some tag)
    (hfull : s.params.capacity tag ≤ s.packet.payloadIndex.toNat) (b : Byte) (t : Instant) :
    exec (.byte b t) s = .next (pushDeadline t (s.start.raiseViolation .bufferOverrun)) :=
  exec_byte_of_consume hps (consumePayload_overrun (s := s.start) htag hfull)

end Violations

/-- Settles O22: the commands listed have no target, and the policy is `resync`. -/
theorem lengthWithoutTargetViolates : Obligations.LengthWithoutTargetViolates := by
  intro s b t length hlength hps hpolicy hne hcommand
  have hnone : targetOf s.packet.command = none := by
    obtain hcommand | hcommand | hcommand := hcommand <;> (rw [hcommand]; rfl)
  rw [exec_byte_noTarget hlength hps hne hnone t, State.raiseViolation_resync (storeLengthHigh b s.start) _ hpolicy,
    storeLengthHigh_eq (s := s.start) hlength]
  rfl

/-- Settles O24: the violation of a full buffer, with the policy `resync`. -/
theorem payloadOverrunViolates : Obligations.PayloadOverrunViolates := by
  intro s b t tag hps htag hfull hpolicy
  rw [exec_byte_overrun hps htag hfull b t, State.raiseViolation_resync s.start _ hpolicy]
  rfl

section ByteKeeps

variable {s u v : State} {b : Byte} {t : Instant} {ps : ParserState} {r : State × ParserEvent}

/-! ### What no byte does (rule R187, rule R216)

A byte may halt the core and may report `PacketReady` or a violation; it never ends a halt, and never reports `TimeoutFired`. -/

/-- A halted core stays halted, and no `TimeoutFired` is reported. -/
structure State.ByteKeeps (s u : State) : Prop where
  halted : s.halted = true → u.halted = true
  noTimeout : .timeoutFired ∉ s.events → .timeoutFired ∉ u.events

theorem State.ByteKeeps.trans (h : s.ByteKeeps u) (k : u.ByteKeeps v) : s.ByteKeeps v :=
  ⟨fun hs => k.halted (h.halted hs), fun hs => k.noTimeout (h.noTimeout hs)⟩

theorem State.ByteKeeps.of_eq (hhalted : u.halted = s.halted) (hevents : u.events = s.events) : s.ByteKeeps u :=
  ⟨fun hs => hhalted.trans hs, fun hs => by rwa [hevents]⟩

theorem raiseViolation_keeps (s : State) (cause : ViolationCause) : s.ByteKeeps (s.raiseViolation cause) := by
  have hrecord : s.ByteKeeps (s.recordViolation cause) := ⟨id, fun hs => by simpa [State.recordViolation] using hs⟩
  obtain ⟨-, heq⟩ | ⟨-, heq⟩ := raiseViolation_cases s cause <;> rw [heq]
  · exact hrecord.trans (.of_eq rfl rfl)
  · exact ⟨fun _ => rfl, hrecord.noTimeout⟩

theorem applyLengthPolicy_keeps (s : State) : s.ByteKeeps (applyLengthPolicy s) := by
  obtain ⟨-, heq⟩ | ⟨-, -, heq⟩ | ⟨tag, -, -, heq⟩ := applyLengthPolicy_cases s <;> rw [heq]
  · exact .of_eq rfl rfl
  · exact raiseViolation_keeps s _
  · exact .of_eq rfl rfl

theorem leavePayload_keeps (s : State) : s.ByteKeeps (leavePayload s) := by
  unfold leavePayload
  split <;> exact .of_eq rfl rfl

theorem storePayload_keeps (tag : BufferTag) (b : Byte) (s : State) : s.ByteKeeps (storePayload tag b s) :=
  .of_eq (s.memWrite_halted tag _ b) (s.memWrite_events tag _ b)

/-- Every slot, in whatever state it is called. -/
theorem consume_keeps (h : consume ps b t s = .next r) : s.ByteKeeps r.1 := by
  cases ps with
  | lengthHigh =>
    cases h
    have hstore : s.ByteKeeps (storeLengthHigh b s) := .of_eq rfl rfl
    exact hstore.trans (applyLengthPolicy_keeps _)
  | payload =>
    obtain ⟨-, rfl⟩ | ⟨tag, -, -, rfl⟩ := consumePayload_cases h
    · exact raiseViolation_keeps s _
    · exact (storePayload_keeps tag b s).trans (leavePayload_keeps _)
  | packetReceived => cases h
  | command | compression | lengthLow | checksumLow | checksumHigh | deviceId | status => cases h; exact .of_eq rfl rfl

theorem packetReady_keeps (s : State) : s.ByteKeeps (packetReady s) := by
  have hready : s.ByteKeeps ({ s with readyFlag := true }.emit .packetReady) := ⟨id, fun hs => by simpa using hs⟩
  obtain ⟨-, heq⟩ | ⟨-, heq⟩ := packetReady_cases s <;> rw [heq]
  · exact hready.trans (.of_eq rfl rfl)
  · exact hready

theorem dispatchEvent_keeps (r : State × ParserEvent) : r.1.ByteKeeps (dispatchEvent r) := by
  obtain ⟨-, heq⟩ | ⟨x, -, heq⟩ | ⟨-, heq⟩ := dispatchEvent_cases r <;> rw [heq]
  · exact .of_eq rfl rfl
  · exact .of_eq rfl rfl
  · exact packetReady_keeps r.1

theorem completeByte_keeps (h : completeByte b t s = .next u) : s.ByteKeeps u := by
  obtain ⟨r, hparse, rfl⟩ := completeByte_cases h
  rw [parse_eq_consume] at hparse
  exact (consume_keeps hparse).trans ((dispatchEvent_keeps r).trans (.of_eq rfl rfl))

end ByteKeeps

section Halted

variable {s u : State} {c d : Level} {t : Instant} {i : Instr}

/-! ### A halted core (rule R216) -/

theorem edge_of_halted (h : s.halted = true) (c d : Level) (t : Instant) : edge c d t s = .next s := if_pos h

theorem edges_of_halted (h : s.halted = true) (es : List (Level × Level)) (t : Instant) : edges es t s = .next s := by
  induction es with
  | nil => rfl
  | cons e rest ih => rw [edges, edge_of_halted h, andThen_next, ih]

theorem exec_poll_of_halted (h : s.halted = true) (t : Instant) : exec (.poll t) s = .next s.start := if_pos h

theorem exec_clearReady_of_halted (h : s.halted = true) : exec .clearReady s = .next s.start := if_pos h

/-- The print check writes two flags, its deadline and the events, and nothing else. -/
theorem checkPrint_frame (t : Instant) (s : State) :
    checkPrint t s = { s with
      printer := (checkPrint t s).printer, pretendPrintDeadline := (checkPrint t s).pretendPrintDeadline,
      events := (checkPrint t s).events } := by
  obtain ⟨-, heq⟩ | ⟨-, heq⟩ := checkPrint_cases t s
  · rw [heq]; rfl
  · rw [heq]

@[simp] theorem checkPrint_halted (t : Instant) (s : State) : (checkPrint t s).halted = s.halted := by
  rw [checkPrint_frame]

@[simp] theorem checkPrint_sync (t : Instant) (s : State) : (checkPrint t s).sync = s.sync := by
  rw [checkPrint_frame]

@[simp] theorem checkPrint_packet (t : Instant) (s : State) : (checkPrint t s).packet = s.packet := by
  rw [checkPrint_frame]

@[simp] theorem checkPrint_timeoutDeadline (t : Instant) (s : State) :
    (checkPrint t s).timeoutDeadline = s.timeoutDeadline := by
  rw [checkPrint_frame]

@[simp] theorem checkTimeout_halted (t : Instant) (s : State) : (checkTimeout t s).halted = s.halted := by
  obtain ⟨-, heq⟩ | ⟨-, heq⟩ := checkTimeout_cases t s
  · rw [heq]; rfl
  · rw [heq]

/-- Every row but `RESET` leaves a halted core halted, a sub-operation called on its own included. -/
theorem exec_halted (hhalted : s.halted = true) (hreset : i ≠ .reset) (h : exec i s = .next u) : u.halted = true := by
  cases exec_rowOutcome h with
  | reset => exact absurd rfl hreset
  | poll t => rw [checkTimeout_halted, checkPrint_halted]; exact hhalted
  | wire _ hedges => cases (edges_of_halted (s := s.start) hhalted _ _).symm.trans hedges; exact hhalted
  | byte b t hbyte => exact (completeByte_keeps hbyte).halted hhalted
  | slot ps _ hslot => exact (consume_keeps hslot).halted hhalted
  | halted | clearReady | query | stage | sessionResync | statusByte => exact hhalted

end Halted

/-- Settles O41: the two violations with the policy `halt`; then the six operations of a halted core; then, of every row but
`RESET`, that the core stays halted. -/
theorem haltedUntilReset : Obligations.HaltedUntilReset := by
  refine ⟨fun s b t tag hpolicy hps htag hfull => ?_, fun s b t length hpolicy hlength hps hne hnone => ?_,
    fun s c d t hhalted => ?_, fun s u i hhalted h hrunning => ?_⟩
  · rw [exec_byte_overrun hps htag hfull b t, State.raiseViolation_halt s.start _ hpolicy]
    rfl
  · rw [exec_byte_noTarget hlength hps hne hnone t, State.raiseViolation_halt (storeLengthHigh b s.start) _ hpolicy,
      storeLengthHigh_eq (s := s.start) hlength]
    rfl
  · exact ⟨edge_of_halted (s := s.start) hhalted c d t, exec_poll_of_halted hhalted t, exec_clearReady_of_halted hhalted,
      rfl, rfl, rfl⟩
  · by_contra hreset
    cases hrunning.symm.trans (exec_halted hhalted hreset h)

section ReturnsNormally

variable {s : State} {i : Instr}

/-! ### Every operation returns (rule R220)

The model stops in two places only (notes/assumptions/10.md), and a consistent state excludes both. -/

/-- The parser has a state that takes a byte, and a buffer for it in `PAYLOAD`. -/
structure State.TakesByte (s : State) : Prop where
  notResting : s.parserState ≠ .packetReceived
  target : s.parserState = .payload → ∃ tag, s.packet.payloadTarget = some tag

theorem State.Consistent.takesByte (h : s.Consistent) : s.TakesByte where
  notResting := h.notResting
  target hps := by
    obtain ⟨tag, hcollecting⟩ := h.collecting hps
    exact ⟨tag, hcollecting.target⟩

/-- With a target a payload byte is stored, or it raises a violation. -/
theorem consumePayload_returns {tag : BufferTag} (htag : s.packet.payloadTarget = some tag) (b : Byte) :
    ∃ r, consumePayload b s = .next r := by
  obtain hfull | hfits := le_or_gt (s.params.capacity tag) s.packet.payloadIndex.toNat
  · exact ⟨_, consumePayload_overrun htag hfull⟩
  · exact ⟨_, consumePayload_store htag hfits⟩

theorem State.TakesByte.parse_returns (h : s.TakesByte) (b : Byte) (t : Instant) : ∃ r, parse b t s = .next r := by
  rw [parse_eq_consume]
  cases hps : s.parserState with
  | payload =>
    obtain ⟨tag, htag⟩ := h.target hps
    exact consumePayload_returns htag b
  | packetReceived => exact absurd hps h.notResting
  | command | compression | lengthLow | lengthHigh | checksumLow | checksumHigh | deviceId | status => exact ⟨_, rfl⟩

theorem State.TakesByte.completeByte_safe (h : s.TakesByte) (b : Byte) (t : Instant) : Safe (completeByte b t s) := by
  obtain ⟨r, hparse⟩ := h.parse_returns b t
  exact ⟨_, by rw [completeByte, hparse, andThen_next]⟩

theorem State.TakesByte.receiveBit_safe (h : s.TakesByte) (d : Level) (t : Instant) : Safe (receiveBit d t s) := by
  by_cases hlast : s.sync.bitPosition = 0#3
  · rw [receiveBit_last hlast]
    have hframe : (beginFrame s).TakesByte := { h with }
    exact hframe.completeByte_safe _ t
  · exact ⟨_, receiveBit_before_last hlast d t⟩

/-- Of the four ways an edge acts, only a received bit can reach the parser (rule R110). -/
theorem State.TakesByte.actOnEdge_safe (h : s.TakesByte) (c d : Level) (t : Instant) : Safe (actOnEdge c d t s) := by
  cases c <;> cases hsync : s.sync.synchronized
  · exact ⟨_, actOnEdge_silent hsync⟩
  · exact ⟨_, actOnEdge_transmit hsync⟩
  · exact ⟨_, actOnEdge_scan hsync⟩
  · rw [actOnEdge_receive hsync]
    exact h.receiveBit_safe d t

theorem State.TakesByte.edge_safe (h : s.TakesByte) (c d : Level) (t : Instant) : Safe (edge c d t s) := by
  unfold edge
  split
  · exact ⟨_, rfl⟩
  · split
    · exact ⟨_, rfl⟩
    · split
      · exact ⟨_, rfl⟩
      · have hlevel : (recordLevel c s).TakesByte := { h with }
        exact hlevel.actOnEdge_safe c d t

/-- Each edge of a sequence finds the consistent state that the one before it left. -/
theorem State.Consistent.edges_safe (h : s.Consistent) (es : List (Level × Level)) (t : Instant) : Safe (edges es t s) := by
  induction es generalizing s with
  | nil => exact ⟨s, rfl⟩
  | cons e rest ih =>
    obtain ⟨c, d⟩ := e
    obtain ⟨v, hv⟩ := h.takesByte.edge_safe c d t
    rw [edges, hv, andThen_next]
    exact ih (h.edge hv)

theorem exec_poll_safe (s : State) (t : Instant) : Safe (exec (.poll t) s) := by
  cases h : s.halted
  · exact ⟨_, exec_poll_of_running h t⟩
  · exact ⟨_, exec_poll_of_halted h t⟩

/-- Every row that a collaborator can cause returns: those made of edges by their law, the others in any state. -/
theorem State.Consistent.exec_safe (h : s.Consistent) (hi : i.external = true) : Safe (Machine.exec i s) := by
  cases i with
  | edge c d t => exact h.start.takesByte.edge_safe c d t
  | bitcell | frame | preamble | init | print | data | inquiry | unknown => exact h.start.edges_safe _ _
  | poll t => exact exec_poll_safe s t
  | clearReady => exact ⟨_, exec_clearReady s⟩
  | reset | isReady | getImage | getLastCommand => exact ⟨_, rfl⟩
  | stage | byte | parse | sessionResync | slotCommand | slotCompression | slotLengthLow | slotLengthHigh | slotPayload
  | slotChecksumLow | slotChecksumHigh | slotDeviceId | slotStatus | statusByte => cases hi

end ReturnsNormally

/-- Settles O52: the row returns, and a row that returns leaves a consistent state. -/
theorem operationsReturnNormally : Obligations.OperationsReturnNormally := by
  intro s i h hi
  obtain ⟨u, hu⟩ := h.exec_safe hi
  exact ⟨u, hu, h.exec hi hu⟩

/-! ### Between two operations (rule R224) -/

/-- With no input pending the core is idle. -/
theorem step_of_no_input {s : State} (hwf : s.params.wf = true) (hempty : s.inputs = []) : step s = .next s := by
  unfold step
  rw [if_neg (by simp [hwf]), hempty]

/-- Settles O6, by the law of an empty tape. -/
theorem idleStepChangesNothing : Obligations.IdleStepChangesNothing := fun _ hwf hempty => step_of_no_input hwf hempty

section Orders

variable {s u v : State} {d : Level} {t : Instant} {i j : Instr}

/-! ### An `EDGE` and a `POLL` at the same instant (rule R218) -/

/-- Two rows one after the other: the state of the second, and the events of both. -/
theorem runAll_pair (hi : exec i s = .next u) (hj : exec j u = .next v) :
    runAll [i, j] s = .next { v with events := u.events ++ v.events } := by
  simp [runAll, hi, hj]

theorem checkPrint_noTimeout (h : .timeoutFired ∉ s.events) (t : Instant) : .timeoutFired ∉ (checkPrint t s).events := by
  obtain ⟨-, heq⟩ | ⟨-, heq⟩ := checkPrint_cases t s <;> rw [heq]
  · simpa using h
  · exact h

/-- A `POLL` that finds no stalled packet, halted or not, fires no timeout and keeps the deadline. -/
theorem exec_poll_of_not_stalled (h : ¬ s.Stalled t) :
    ∃ u, exec (.poll t) s = .next u ∧ .timeoutFired ∉ u.events ∧ u.timeoutDeadline = s.timeoutDeadline := by
  cases hhalted : s.halted
  · have hnot : ¬ (checkPrint t s.start).Stalled t := mt (stalled_checkPrint t s.start).1 h
    refine ⟨_, exec_poll_of_running hhalted t, ?_⟩
    rw [checkTimeout_of_not_stalled hnot]
    exact ⟨checkPrint_noTimeout (by simp) t, checkPrint_timeoutDeadline t s.start⟩
  · exact ⟨_, exec_poll_of_halted hhalted t, List.not_mem_nil, rfl⟩

/-- A running core abandons a stalled packet: the resynchronisation, and the report behind that of the print check. -/
theorem exec_poll_of_stalled (hrunning : s.halted = false) (h : s.Stalled t) :
    exec (.poll t) s = .next ((checkPrint t s.start).resync.emit .timeoutFired) := by
  rw [exec_poll_of_running hrunning, checkTimeout_of_stalled ((stalled_checkPrint t s.start).2 h)]

/-- A deadline that does not pass the top of time is not before its instant (rule R243). -/
theorem toNat_le_add_toNat {window : Instant} (h : t.toNat + window.toNat < 2 ^ 64) : t.toNat ≤ (t + window).toNat := by
  rw [BitVec.toNat_add, Nat.mod_eq_of_lt h]
  exact Nat.le_add_right _ _

/-- An edge that completes a byte is that byte, in the frame that begins (rule R115). -/
theorem edge_completes (hrunning : s.halted = false) (hcalled : s.sync.initialized = true)
    (hclock : s.sync.previousClockLevel = false) (hsync : s.sync.synchronized = true)
    (hposition : s.sync.bitPosition = 0#3) (d : Level) (t : Instant) :
    edge true d t s = completeByte (mergeBit s.sync.rxAccumulator s.sync.bitPosition d) t (beginFrame (recordLevel true s)) :=
  (edge_receives hrunning hcalled hclock hsync).trans (receiveBit_last (s := recordLevel true s) hposition d t)

/-- Edge first: the byte pushes the deadline, so that the `POLL` at the same instant finds no stalled packet. -/
theorem poll_after_byte {b : Byte} (hbyte : completeByte b t s = .next u) (hevents : s.events = [])
    (htop : t.toNat + s.params.timeoutWindow.toNat < 2 ^ 64) :
    ∃ v, exec (.poll t) u = .next v ∧ .timeoutFired ∉ u.events ++ v.events
      ∧ v.timeoutDeadline = t + s.params.timeoutWindow := by
  have hpushed := completeByte_timeoutDeadline hbyte
  have hnot : ¬ u.Stalled t := fun ⟨_, hlate⟩ => by
    rw [hpushed] at hlate
    exact absurd hlate (Nat.not_lt.2 (toNat_le_add_toNat htop))
  obtain ⟨v, hv, hquiet, hkept⟩ := exec_poll_of_not_stalled hnot
  have hnone : .timeoutFired ∉ u.events := (completeByte_keeps hbyte).noTimeout (by simp [hevents])
  exact ⟨v, hv, by simp [hnone, hquiet], hkept.trans hpushed⟩

/-- A level scanned from the zero register is its only bit. -/
theorem shiftIn_zero (d : Level) : shiftIn 0#16 d = BitVec.ofNat 16 d.toNat := by
  simp [shiftIn_eq_ofNat]

/-- A level scanned: the register takes it, and synchronisation is the match (rule R113). -/
theorem preambleScan_register (hsync : s.sync.synchronized = false) (d : Level) :
    (preambleScan d s).sync.syncShiftRegister = shiftIn s.sync.syncShiftRegister d
    ∧ ((preambleScan d s).sync.synchronized = true ↔ shiftIn s.sync.syncShiftRegister d = s.params.syncWord) := by
  unfold preambleScan
  split
  · exact ⟨rfl, iff_of_true rfl ‹_›⟩
  · exact ⟨rfl, iff_of_false (by simp [hsync]) ‹_›⟩

/-- A scanned level is written to SyncState only. -/
theorem preambleScan_frame (d : Level) (s : State) : preambleScan d s = { s with sync := (preambleScan d s).sync } := by
  unfold preambleScan
  split <;> rfl

/-- The first level scanned after a resynchronisation stands alone in the register (rule R30, rule R113). -/
theorem exec_edge_scans_first (hrunning : s.halted = false) (hcalled : s.sync.initialized = true)
    (hclock : s.sync.previousClockLevel = false) (hsync : s.sync.synchronized = false)
    (hzero : s.sync.syncShiftRegister = 0#16) (d : Level) (t : Instant) :
    ∃ v, exec (.edge true d t) s = .next v ∧ v.timeoutDeadline = s.timeoutDeadline ∧ v.parserState = s.parserState
      ∧ v.packet = s.packet ∧ v.sync.syncShiftRegister = BitVec.ofNat 16 d.toNat
      ∧ (v.sync.synchronized = true ↔ BitVec.ofNat 16 d.toNat = s.params.syncWord) := by
  obtain ⟨hregister, hmatch⟩ := preambleScan_register (s := recordLevel true s.start) hsync d
  have hlevel : shiftIn (recordLevel true s.start).sync.syncShiftRegister d = BitVec.ofNat 16 d.toNat := by
    rw [← shiftIn_zero, ← hzero]
    rfl
  rw [hlevel] at hregister hmatch
  refine ⟨_, edge_scans (s := s.start) hrunning hcalled hclock hsync, ?_, ?_, ?_, hregister, hmatch⟩ <;>
    (rw [preambleScan_frame]; rfl)

end Orders

/-- Settles O60: the edge first completes a byte; the poll first leaves a core that scans from the zero register. -/
theorem edgeAndPollOrdersDiffer : Obligations.EdgeAndPollOrdersDiffer := by
  intro s d t h hrunning hcalled hclock hsync hposition hbusy hlate htop
  constructor
  · obtain ⟨u, hedge⟩ := h.start.takesByte.edge_safe true d t
    have hbyte := (edge_completes (s := s.start) hrunning hcalled hclock hsync hposition d t).symm.trans hedge
    obtain ⟨v, hpoll, hquiet, hpushed⟩ := poll_after_byte hbyte rfl htop
    exact ⟨_, runAll_pair hedge hpoll, hquiet, hpushed⟩
  · have hpoll := exec_poll_of_stalled hrunning ⟨hbusy, hlate⟩
    have hparams := (exec_sameInstance hpoll).params
    obtain ⟨v, hedge, hkept, hidle, hpacket, hregister, hmatch⟩ :=
      exec_edge_scans_first (s := (checkPrint t s.start).resync.emit .timeoutFired) (by simpa using hrunning)
        (by simpa using hcalled) (by simpa using hclock) rfl rfl d t
    refine ⟨_, runAll_pair hpoll hedge, by simp, hkept.trans ?_, hidle, hpacket.trans ?_, hregister, hparams ▸ hmatch⟩
    · exact checkPrint_timeoutDeadline t s.start
    · exact checkPrint_packet t s.start

end Sys2Proof.Machine

/-!
PROOFS. The statements on reset and its hazards (70_reset_and_hazards.md): what `RESET` assigns (rule R240, R241), that the state
it leaves meets the invariants, and that no other row undoes what only `RESET` may undo (rule R240).
-/
namespace Sys2Proof.Machine

section Reset

/-! ### `RESET` (rule R240, rule R241) -/

/-- `RESET` is its assignment, in any state, halted or not. -/
theorem exec_reset (s : State) : exec .reset s = .next s.resetAll := rfl

/-- No byte of either buffer is written after `RESET`. -/
@[simp] theorem State.resetAll_buffer (s : State) (tag : BufferTag) : s.resetAll.buffer tag = [] := by
  cases tag <;> rfl

/-- The state the machine starts in is, but for the count of resets, the one that `RESET` leaves. -/
theorem State.reset_resetAll : State.reset.resetAll = { State.reset with epoch := 1 } := rfl

/-- No invariant speaks of the count of resets. -/
theorem State.reset_consistent : State.reset.Consistent :=
  State.reset.resetAll_consistent.congr { State.reset.resetAll_wf with } rfl rfl rfl rfl rfl

end Reset

/-- Settles O7, by the laws of `State.resetAll` for each element and for the buffers. -/
theorem resetAssignsEveryElement : Obligations.ResetAssignsEveryElement := by
  refine fun s => ⟨s.resetAll, exec_reset s, ?_⟩
  simp [SyncState.reset, Packet.reset, PrinterStatus.reset, Buffer.read]

/-- Settles O8: the invariants, the admitted instantiation, and `RESET` of the reset state. -/
theorem resetStateIsConsistent : Obligations.ResetStateIsConsistent :=
  ⟨State.reset_consistent, by decide, (exec_reset State.reset).trans (congrArg _ State.reset_resetAll)⟩

section Retains

variable {s u v : State} {b : Byte} {c d : Level} {t : Instant} {i : Instr} {ps : ParserState} {r : State × ParserEvent}

/-! ### The violation record (rule R49, rule R214)

Beside `RESET` only a violation writes the record, and it writes a cause other than `NONE`. -/

/-- A record that is set in `s` is set in `u`; its cause may be a newer one. -/
structure State.KeepsRecord (s u : State) : Prop where
  flag : s.violationFlag = true → u.violationFlag = true
  cause : s.violationCause ≠ .none → u.violationCause ≠ .none

theorem State.KeepsRecord.trans (h : s.KeepsRecord u) (k : u.KeepsRecord v) : s.KeepsRecord v :=
  ⟨fun hs => k.flag (h.flag hs), fun hs => k.cause (h.cause hs)⟩

theorem State.KeepsRecord.of_eq (hflag : u.violationFlag = s.violationFlag)
    (hcause : u.violationCause = s.violationCause) : s.KeepsRecord u :=
  ⟨hflag.trans, hcause.trans_ne⟩

theorem raiseViolation_keepsRecord (s : State) {cause : ViolationCause} (hcause : cause ≠ .none) :
    s.KeepsRecord (s.raiseViolation cause) := by
  obtain ⟨-, heq⟩ | ⟨-, heq⟩ := raiseViolation_cases s cause <;> (rw [heq]; exact ⟨fun _ => rfl, fun _ => hcause⟩)

theorem applyLengthPolicy_keepsRecord (s : State) : s.KeepsRecord (applyLengthPolicy s) := by
  obtain ⟨-, heq⟩ | ⟨-, -, heq⟩ | ⟨tag, -, -, heq⟩ := applyLengthPolicy_cases s <;> rw [heq]
  · exact .of_eq rfl rfl
  · exact raiseViolation_keepsRecord s nofun
  · exact .of_eq rfl rfl

theorem storePayload_keepsRecord (tag : BufferTag) (b : Byte) (s : State) : s.KeepsRecord (storePayload tag b s) :=
  .of_eq (s.memWrite_violationFlag tag _ b) (s.memWrite_violationCause tag _ b)

theorem leavePayload_keepsRecord (s : State) : s.KeepsRecord (leavePayload s) := by
  unfold leavePayload
  split <;> exact .of_eq rfl rfl

/-- Every slot, in whatever state it is called: the two that can raise a violation, and the rest by their own assignments. -/
theorem consume_keepsRecord (h : consume ps b t s = .next r) : s.KeepsRecord r.1 := by
  cases ps with
  | lengthHigh =>
    cases h
    have hstore : s.KeepsRecord (storeLengthHigh b s) := .of_eq rfl rfl
    exact hstore.trans (applyLengthPolicy_keepsRecord _)
  | payload =>
    obtain ⟨-, rfl⟩ | ⟨tag, -, -, rfl⟩ := consumePayload_cases h
    · exact raiseViolation_keepsRecord s nofun
    · exact (storePayload_keepsRecord tag b s).trans (leavePayload_keepsRecord _)
  | packetReceived => cases h
  | command | compression | lengthLow | checksumLow | checksumHigh | deviceId | status => cases h; exact .of_eq rfl rfl

@[simp] theorem dispatchEvent_violationCause (r : State × ParserEvent) :
    (dispatchEvent r).violationCause = r.1.violationCause := by
  obtain ⟨-, heq⟩ | ⟨x, -, heq⟩ | ⟨-, heq⟩ := dispatchEvent_cases r <;> rw [heq]
  · rfl
  · obtain ⟨-, heq⟩ | ⟨-, heq⟩ := packetReady_cases r.1 <;> (rw [heq]; rfl)

theorem completeByte_keepsRecord (h : completeByte b t s = .next u) : s.KeepsRecord u := by
  obtain ⟨r, hparse, rfl⟩ := completeByte_cases h
  rw [parse_eq_consume] at hparse
  exact (consume_keepsRecord hparse).trans (.of_eq (dispatchEvent_violationFlag r) (dispatchEvent_violationCause r))

/-- `EDGE` writes SyncState only, or it completes a byte. -/
theorem edge_keepsRecord (h : edge c d t s = .next u) : s.KeepsRecord u := by
  obtain ⟨-, rfl⟩ | ⟨-, -, rfl⟩ | ⟨-, -, -, rfl⟩ | ⟨-, -, -, hacts⟩ := edge_cases h
  · exact .of_eq rfl rfl
  · exact .of_eq rfl rfl
  · exact .of_eq rfl rfl
  · obtain ⟨-, -, rfl⟩ | ⟨-, -, hreceive⟩ | ⟨-, -, rfl⟩ | ⟨-, -, rfl⟩ := hacts
    · rw [preambleScan_frame]; exact .of_eq rfl rfl
    · obtain ⟨-, hbyte⟩ | ⟨-, rfl⟩ := receiveBit_cases hreceive
      · have hframe : s.KeepsRecord (beginFrame (recordLevel c s)) := .of_eq rfl rfl
        exact hframe.trans (completeByte_keepsRecord hbyte)
      · exact .of_eq rfl rfl
    · exact .of_eq rfl rfl
    · exact .of_eq rfl rfl

/-! ### What only `RESET` undoes (rule R240)

Beside the record, the first call and the driven line. An `EDGE` writes these two, in one direction only; every other part of the
model keeps them, the forced resynchronisation included (rule R30). `halted` has its own law, `exec_halted`. -/

/-- Of what only `RESET` clears or undrives, nothing that stands in `s` is undone in `u`. -/
structure State.Retains (s u : State) : Prop extends s.KeepsRecord u where
  initialized : s.sync.initialized = true → u.sync.initialized = true
  driven : s.sync.dataOut ≠ .undriven → u.sync.dataOut ≠ .undriven

theorem State.Retains.trans (h : s.Retains u) (k : u.Retains v) : s.Retains v where
  toKeepsRecord := h.toKeepsRecord.trans k.toKeepsRecord
  initialized hs := k.initialized (h.initialized hs)
  driven hs := k.driven (h.driven hs)

/-- Where the lines stay the same only the record matters. -/
theorem State.Retains.of_sameLines (hlines : s.sync.SameLines u.sync) (hrecord : s.KeepsRecord u) : s.Retains u :=
  { hrecord with
    initialized := hlines.initialized.trans
    driven := hlines.dataOut.trans_ne }

theorem State.Retains.refl (s : State) : s.Retains s := .of_sameLines ⟨rfl, rfl, rfl⟩ (.of_eq rfl rfl)

/-- An `EDGE` of a running core ends the wait for the first call (rule R111), and drives a level if it writes the line at all
(rule R116). -/
theorem edge_retains (h : edge c d t s = .next u) : s.Retains u :=
  { edge_keepsRecord h with
    initialized := fun hs => by
      cases hhalted : s.halted with
      | false => exact (edge_recordsLevel hhalted h).2
      | true => cases (edge_of_halted hhalted c d t).symm.trans h; exact hs
    driven := fun hs => by
      obtain hsame | ⟨-, -, -, l, hlevel, -⟩ := edge_dataOut h
      · exact hsame.trans_ne hs
      · exact hlevel.trans_ne nofun }

theorem edges_retains {es : List (Level × Level)} (h : edges es t s = .next u) : s.Retains u :=
  edges_keep s.Retains (fun _ _ _ _ _ hs hedge => hs.trans (edge_retains hedge)) es t s u (.refl s) h

theorem checkPrint_retains (t : Instant) (s : State) : s.Retains (checkPrint t s) := by
  rw [checkPrint_frame]
  exact .of_sameLines ⟨rfl, rfl, rfl⟩ (.of_eq rfl rfl)

theorem checkTimeout_retains (t : Instant) (s : State) : s.Retains (checkTimeout t s) := by
  obtain ⟨-, heq⟩ | ⟨-, heq⟩ := checkTimeout_cases t s <;>
    (rw [heq]; exact .of_sameLines ⟨rfl, rfl, rfl⟩ (.of_eq rfl rfl))

/-- No row but `RESET` undoes any of these, a sub-operation called on its own included. -/
theorem exec_retains (hreset : i ≠ .reset) (h : exec i s = .next u) : s.Retains u := by
  have hstart : s.Retains s.start := .of_sameLines ⟨rfl, rfl, rfl⟩ (.of_eq rfl rfl)
  refine hstart.trans ?_
  cases exec_rowOutcome h with
  | reset => exact absurd rfl hreset
  | poll t => exact (checkPrint_retains t _).trans (checkTimeout_retains t _)
  | wire _ hedges => exact edges_retains hedges
  | byte b t hbyte => exact .of_sameLines (completeByte_sameLines hbyte) (completeByte_keepsRecord hbyte)
  | slot ps _ hslot =>
    have hlines := consume_sameLines hslot
    have hrecord := consume_keepsRecord hslot
    exact .of_sameLines { hlines with } { hrecord with }
  | halted | clearReady | query | stage | sessionResync | statusByte =>
    exact .of_sameLines ⟨rfl, rfl, rfl⟩ (.of_eq rfl rfl)

end Retains

/-- Settles O54, by the law of every row and that of a halted core. -/
theorem onlyResetClears : Obligations.OnlyResetClears := by
  intro s u i h hreset
  obtain ⟨⟨hflag, hcause⟩, hinitialized, hdriven⟩ := exec_retains hreset h
  exact ⟨hinitialized, hflag, hcause, fun hhalted => exec_halted hhalted hreset h, hdriven⟩

end Sys2Proof.Machine

/-!
PROOFS. The statements on the record format of the inputs (notes/assumptions/6.md): decoding gives back what was encoded, and
the words written out from the formats (30_encoding.md sections 3 to 5) are the records of their instructions.

Each reader of a record gives back what the encoder wrote there, whatever follows; a record is its tag and the readers of its
operands in order, and the CMD rows are told apart by the command byte alone (rule R88).
-/
namespace Sys2Proof

section Records

variable {p : Params} {cmd : Byte} {m : PacketBody} {i : Instr} {rest : List Byte}

/-! ### The readers of a record -/

/-- One byte, then the instant. -/
theorem takeByteInstantInstr_record (f : Byte → Instant → Instr) (b : Byte) (t : Instant) (rest : List Byte) :
    takeByteInstantInstr f (b :: (encodeInstant t ++ rest)) = .ok (f b t, rest) := by
  simp only [takeByteInstantInstr, takeByte_cons, takeInstant_encodeInstant, bind, Except.bind]

/-- The sync word is sent with bit 15 first, so its high byte stands first in the record (rule R84). -/
theorem takePreamble_record (p : Params) (t : Instant) (rest : List Byte) :
    takePreamble p (highByte p.syncWord :: lowByte p.syncWord :: (encodeInstant t ++ rest))
      = .ok (.preamble t, rest) := by
  simp only [takePreamble, takeByte_cons, Machine.assemble16_lowByte_highByte, if_true, takeInstant_encodeInstant, bind,
    Except.bind]

/-- The four flags stand at distinct positions (rule R7), and no other bit of the status byte is set (rule R92). -/
theorem takeStatusByte_record (h : p.wf = true) (u f b e : Bool) (rest : List Byte) :
    takeStatusByte p (encodeStatus p e b f u :: rest) = .ok (.statusByte u f b e, rest) := by
  obtain ⟨hchecksum, hbusy, hfull, hdata, -⟩ := statusByteBitPerFlag p e b f u h
  simp only [takeStatusByte, takeByte_cons, encodeStatus_reserved, if_true, hchecksum, hbusy, hfull, hdata, bind,
    Except.bind]

/-! ### A packet (rule R86, rule R88) -/

/-- The length field of a well-formed packet holds the number of its payload bytes (rule R87). -/
theorem PacketBody.lengthField_toNat (hm : m.wf = true) : (BitVec.ofNat 16 m.payload.length).toNat = m.payload.length := by
  have hlength : m.payload.length ≤ 65535 := of_decide_eq_true hm
  exact Nat.mod_eq_of_lt (by omega)

/-- The fields after the command byte, each read by its own reader in the order of rule R86; the length field tells where the
payload ends. -/
theorem takePacketBody_record (hm : m.wf = true) (rest : List Byte) :
    takePacketBody (m.compression :: (encodeWord16 (BitVec.ofNat 16 m.payload.length) ++ (m.payload
      ++ (encodeWord16 m.checksum ++ m.ackSlot :: m.statusSlot :: (encodeInstant m.instant ++ rest))))) = .ok (m, rest) := by
  simp only [takePacketBody, takeByte_cons, takeWord16_encodeWord16, PacketBody.lengthField_toNat hm, takeBytes_append,
    takeInstant_encodeInstant, bind, Except.bind]

/-- A packet's record: the tag, the command byte, and the fields after it. -/
theorem decode_packet {r : List Byte} (hbody : takePacketBody r = .ok (m, rest)) :
    decode p (Tag.packet :: cmd :: r) = .ok (packetInstr p cmd m, rest) := by
  show (do let (m, r) ← takePacketBody r; .ok (packetInstr p cmd m, r)) = _
  simp only [hbody, bind, Except.bind]

/-- A packet's record decodes to the row that its command byte selects, whatever the other fields hold. -/
theorem decode_encodePacket (hm : m.wf = true) (hrow : packetInstr p cmd m = i) (rest : List Byte) :
    decode p (encodePacket cmd m ++ rest) = .ok (i, rest) := by
  simp only [encodePacket, packetBytes, List.cons_append, List.append_assoc, List.nil_append]
  rw [decode_packet (takePacketBody_record hm rest), hrow]

/-- Each of the four codes selects its own row, and every other byte the row `UNKNOWN` (rule R88, rule R89). -/
theorem packetInstr_rows (h : p.wf = true) (m : PacketBody) :
    packetInstr p p.cmdInit m = .init m ∧ packetInstr p p.cmdData m = .data m ∧ packetInstr p p.cmdPrint m = .print m
      ∧ packetInstr p p.cmdInquiry m = .inquiry m
      ∧ ∀ b, p.isCommandCode b = false → packetInstr p b m = .unknown b m := by
  obtain ⟨hinit, hdata, hprint, hinquiry, hunknown, -⟩ := commandDecodeByEquality p h
  refine ⟨?_, ?_, ?_, ?_, fun b hcode => ?_⟩
  · simp only [packetInstr, hinit]
  · simp only [packetInstr, hdata]
  · simp only [packetInstr, hprint]
  · simp only [packetInstr, hinquiry]
  · simp only [Params.isCommandCode, decide_eq_false_iff_not, List.mem_cons, List.not_mem_nil, or_false, not_or] at hcode
    obtain ⟨hbInit, hbPrint, hbData, hbInquiry⟩ := hcode
    simp only [packetInstr, (hunknown b).2 ⟨hbInit, hbData, hbPrint, hbInquiry⟩]

end Records

/-- Settles O1, row by row: the tag selects the reader of the row, and that reader gives back the operands. -/
theorem decodeEncodeAgree : Obligations.DecodeEncodeAgree := by
  intro p i rest h hwf
  cases i with
  | reset | clearReady | isReady | getImage | getLastCommand | sessionResync => rfl
  | stage | slotCommand | slotCompression | slotLengthLow | slotLengthHigh | slotPayload | slotChecksumLow | slotChecksumHigh
  | slotStatus => rfl
  | byte b t => exact takeByteInstantInstr_record .byte b t rest
  | parse b t => exact takeByteInstantInstr_record .parse b t rest
  | frame b t => exact takeByteInstantInstr_record .frame b t rest
  | slotDeviceId b t => exact takeByteInstantInstr_record .slotDeviceId b t rest
  | preamble t => exact takePreamble_record p t rest
  | statusByte u f b e => exact takeStatusByte_record h u f b e rest
  | poll t =>
    show (do let (t, r) ← takeInstant (encodeInstant t ++ rest); .ok (Instr.poll t, r)) = _
    simp only [takeInstant_encodeInstant, bind, Except.bind]
  | bitcell d t =>
    show (do
      let (d, r) ← takeLevel (encodeLevel d ++ (encodeInstant t ++ rest))
      let (t, r) ← takeInstant r
      .ok (Instr.bitcell d t, r)) = _
    simp only [takeLevel_encodeLevel, takeInstant_encodeInstant, bind, Except.bind]
  | edge c d t =>
    show (do
      let (c, r) ← takeLevel (encodeLevel c ++ (encodeLevel d ++ (encodeInstant t ++ rest)))
      let (d, r) ← takeLevel r
      let (t, r) ← takeInstant r
      .ok (Instr.edge c d t, r)) = _
    simp only [takeLevel_encodeLevel, takeInstant_encodeInstant, bind, Except.bind]
  | init m =>
    obtain ⟨hrow, -⟩ := packetInstr_rows h m
    exact decode_encodePacket hwf hrow rest
  | data m =>
    obtain ⟨-, hrow, -⟩ := packetInstr_rows h m
    exact decode_encodePacket hwf hrow rest
  | print m =>
    obtain ⟨-, -, hrow, -⟩ := packetInstr_rows h m
    exact decode_encodePacket hwf hrow rest
  | inquiry m =>
    obtain ⟨-, -, -, hrow, -⟩ := packetInstr_rows h m
    exact decode_encodePacket hwf hrow rest
  | unknown b m =>
    simp only [Instr.wf, Bool.and_eq_true, Bool.not_eq_true'] at hwf
    obtain ⟨hcode, hm⟩ := hwf
    obtain ⟨-, -, -, -, hrow⟩ := packetInstr_rows h m
    exact decode_encodePacket hm (hrow b hcode) rest

/-- A word of the table whose record is that of a well-formed instruction decodes to it. -/
theorem decodeTableWord_of_record {nbits w : Nat} {i : Instr} (hwf : i.wf Params.usual = true)
    (hrecord : tableRecord Params.usual nbits w = encode Params.usual i) : decodeTableWord nbits w = some i := by
  have hdecode := decodeEncodeAgree Params.usual i [] (by decide) hwf
  rw [List.append_nil, ← hrecord] at hdecode
  simp only [decodeTableWord, hdecode]

/-- Settles O3: each word is the record that `encode` writes for its instruction, under the usual values. -/
theorem wordsDecodeAsWritten : Obligations.WordsDecodeAsWritten := by
  refine ⟨?_, ?_, ?_, ?_, ?_⟩
  · exact decodeTableWord_of_record (by decide) (by decide)
  · exact decodeTableWord_of_record (by decide) (by decide)
  · exact decodeTableWord_of_record (by decide) (by decide)
  · exact decodeTableWord_of_record (by decide) (by decide)
  · exact decodeEncodeAgree Params.usual (.data ⟨0x00#8, [0x11#8, 0x22#8, 0x33#8], 0x006D#16, 0x00#8, 0x00#8, 1000#64⟩) []
      (by decide) (by decide)

end Sys2Proof
